-- ==== Sys2Proof/Word.lean ====
section
/-! DEFINITION. The two word types of the block: the byte (8 bits) and the 16-bit field (00_scope.md R4, R6). -/

namespace Sys2Proof

/-- A byte: an unsigned integer 0 to 255, the addressable unit (00_scope.md R6, 20_memory.md R20). -/
abbrev Byte := BitVec 8

/-- A 16-bit unsigned field: `length`, `checksum` and the running sum (00_scope.md R4). -/
abbrev Half := BitVec 16

end Sys2Proof
end

