-- ==== Sys2Proof/Syntax.lean ====
section
/-! DEFINITION. What the caller presents to the block (`Request`), the Frame record, the closed union of command names,
and `Instr`, one constructor per row of spec/opcode_table.json: the five operations of 30_encoding.md R44 and the
thirteen commands of R40. -/

namespace Sys2Proof

/-- The command names, a closed union of 14 (30_encoding.md R46, 42_commands.md R75): the 13 rows of R40 in the
source's row order, and `UnknownCommand`, which is a variant of its own. -/
inductive Command where
  | requestFileName
  | replyFileName
  | probeRequest
  | probeResponse
  | capabilityNego
  | capabilityAck
  | switchBaudrate
  | switchAck
  | connectionReady
  | requestFileSize
  | replyFileSize
  | requestData
  | sendData
  | unknownCommand
  deriving DecidableEq, Repr

/-- The Frame record of 10_state.md R17: the four fields of a frame as data. -/
structure Frame where
  command : Byte
  length : Half
  payload : List Byte
  checksum : Half
  deriving DecidableEq, Repr

/-- What the caller presents (10_state.md R15). A byte sequence is a list; offset `i` is list position `i` and `n_in` is
the list's length (00_scope.md R6, 10_state.md R15). -/
inductive Request where
  /-- Nothing is presented: no transaction has been started (10_state.md R12). -/
  | idle
  /-- One transaction on the ports `op`, `cmd_in` and `IN` (10_state.md R15). -/
  | transaction (op : BitVec 3) (cmdIn : Byte) (input : List Byte)
  /-- The bytes of a frame as they arrive from the peer, for the receiving side to take apart and name
  (30_encoding.md R35, 42_commands.md R76 to R88). Log entry 2. -/
  | frame (bytes : List Byte)
  deriving DecidableEq, Repr

/-- One constructor per row of spec/opcode_table.json. An operation carries the ports it reads (10_state.md R15); a
command carries the frame's fields after the command byte (30_encoding.md R35), its payload unparsed
(41_framecodec.md R72, 93_implementation_defined.md U6). -/
inductive Instr where
  /-- `op = 0` (40_checksum.md R50). -/
  | csum16 (input : List Byte)
  /-- `op = 1` (40_checksum.md R53). -/
  | validate (input : List Byte)
  /-- `op = 2` (41_framecodec.md R60). -/
  | encode (cmdIn : Byte) (input : List Byte)
  /-- `op = 3` (41_framecodec.md R62). -/
  | decode (input : List Byte)
  /-- `op = 4` (42_commands.md R75). -/
  | classify (cmdIn : Byte)
  /-- Command `0x51` (42_commands.md R76). -/
  | requestFileName (length : Half) (payload : List Byte) (checksum : Half)
  /-- Command `0x52` (42_commands.md R77). -/
  | replyFileName (length : Half) (payload : List Byte) (checksum : Half)
  /-- Command `0x41` (42_commands.md R78). -/
  | probeRequest (length : Half) (payload : List Byte) (checksum : Half)
  /-- Command `0x42` (42_commands.md R79). -/
  | probeResponse (length : Half) (payload : List Byte) (checksum : Half)
  /-- Command `0x43` (42_commands.md R80). -/
  | capabilityNego (length : Half) (payload : List Byte) (checksum : Half)
  /-- Command `0x44` (42_commands.md R81). -/
  | capabilityAck (length : Half) (payload : List Byte) (checksum : Half)
  /-- Command `0x45` (42_commands.md R82). -/
  | switchBaudrate (length : Half) (payload : List Byte) (checksum : Half)
  /-- Command `0x46` (42_commands.md R83). -/
  | switchAck (length : Half) (payload : List Byte) (checksum : Half)
  /-- Command `0x47` (42_commands.md R84). -/
  | connectionReady (length : Half) (payload : List Byte) (checksum : Half)
  /-- Command `0x61` (42_commands.md R85). -/
  | requestFileSize (length : Half) (payload : List Byte) (checksum : Half)
  /-- Command `0x62` (42_commands.md R86). -/
  | replyFileSize (length : Half) (payload : List Byte) (checksum : Half)
  /-- Command `0x63` (42_commands.md R87). -/
  | requestData (length : Half) (payload : List Byte) (checksum : Half)
  /-- Command `0x64` (42_commands.md R88). -/
  | sendData (length : Half) (payload : List Byte) (checksum : Half)
  deriving DecidableEq, Repr

end Sys2Proof
end

