-- ==== Sys2Proof/WellFormed.lean ====
section
/-! DEFINITION. Which instructions have an encoding. The only check is that a frame's payload has exactly as many bytes
as its length field says (10_state.md R17, 30_encoding.md R36). The inputs of an operation have no check: every byte
sequence of every length is legal (30_encoding.md R42, 92_eei_decisions.md D6), and so is every command byte (R41). -/

namespace Sys2Proof

/-- The payload has "exactly `length` bytes" (10_state.md R17). -/
def payloadFits (length : Half) (payload : List Byte) : Bool :=
  payload.length == length.toNat

/-- An instruction that an encoding exists for. -/
def Instr.wellFormed : Instr → Bool
  | .csum16 _ => true
  | .validate _ => true
  | .encode _ _ => true
  | .decode _ => true
  | .classify _ => true
  | .requestFileName length payload _ => payloadFits length payload
  | .replyFileName length payload _ => payloadFits length payload
  | .probeRequest length payload _ => payloadFits length payload
  | .probeResponse length payload _ => payloadFits length payload
  | .capabilityNego length payload _ => payloadFits length payload
  | .capabilityAck length payload _ => payloadFits length payload
  | .switchBaudrate length payload _ => payloadFits length payload
  | .switchAck length payload _ => payloadFits length payload
  | .connectionReady length payload _ => payloadFits length payload
  | .requestFileSize length payload _ => payloadFits length payload
  | .replyFileSize length payload _ => payloadFits length payload
  | .requestData length payload _ => payloadFits length payload
  | .sendData length payload _ => payloadFits length payload

end Sys2Proof
end

