-- ==== Sys2Proof/Decode.lean ====
section
/-! DEFINITION. From what the caller presents to an instruction, and back: byte-order helpers (00_scope.md R7), the command
table (30_encoding.md R40), the decoder, which is total and rejects by name, the encoder, and the words of
spec/opcode_table.json. -/

namespace Sys2Proof

/-- `lo8(v) = v mod 256` (00_scope.md R7). -/
def lo8 (v : Half) : Byte := BitVec.ofNat 8 (v.toNat % 256)

/-- `hi8(v) = (v div 256) mod 256` (00_scope.md R7). -/
def hi8 (v : Half) : Byte := BitVec.ofNat 8 (v.toNat / 256 % 256)

/-- `le16(v) = [lo8(v), hi8(v)]` (00_scope.md R7). -/
def le16 (v : Half) : List Byte := [lo8 v, hi8 v]

/-- `from_le16(b0, b1) = b0 + 256 * b1`; at most 65535, so it does not wrap (00_scope.md R7). -/
def fromLe16 (b0 b1 : Byte) : Half := BitVec.ofNat 16 (b0.toNat + 256 * b1.toNat)

/-- The `k` low bytes of a number, least significant first (the `-le` types of 00_scope.md R6). -/
def bytesLe : Nat → Nat → List Byte
  | 0, _ => []
  | k + 1, v => BitVec.ofNat 8 v :: bytesLe k (v / 256)

/-- The header `command ‖ le16(length)`, three bytes (00_scope.md R9). -/
def header (command : Byte) (length : Half) : List Byte := command :: le16 length

/-- The bytes of a frame with the given fields, in the order of 30_encoding.md R35. -/
def frameBytes (command : Byte) (length : Half) (payload : List Byte) (checksum : Half) : List Byte :=
  header command length ++ (payload ++ le16 checksum)

/-- The type of the model's parameter `CMD_TABLE` (00_scope.md R5, 92_eei_decisions.md D19): command values with the command each names. -/
abbrev CommandTable := List (Byte × Command)

/-- The default of `CMD_TABLE`: the 13 command values of 30_encoding.md R40 (92_eei_decisions.md D19). A claim that rests on a value here
rests on the source's §6 table, whose literals are unaudited (93_implementation_defined.md U1). Log entry 9. -/
def commandTable : CommandTable :=
  [(0x51#8, .requestFileName), (0x52#8, .replyFileName), (0x41#8, .probeRequest), (0x42#8, .probeResponse),
   (0x43#8, .capabilityNego), (0x44#8, .capabilityAck), (0x45#8, .switchBaudrate), (0x46#8, .switchAck),
   (0x47#8, .connectionReady), (0x61#8, .requestFileSize), (0x62#8, .replyFileSize), (0x63#8, .requestData),
   (0x64#8, .sendData)]

/-- The command a byte names by a table of known commands; a byte that is in no row is `UnknownCommand`
(42_commands.md R75, with the table a parameter as 92_eei_decisions.md D19 asks). -/
def classifyBy : CommandTable → Byte → Command
  | [], _ => .unknownCommand
  | (value, command) :: rows, b => if b = value then command else classifyBy rows b

/-- The command a byte names by the default table (42_commands.md R75). -/
def classifyByte (b : Byte) : Command := classifyBy commandTable b

/-- Why what is presented is no instruction of the opcode table. -/
inductive Reject where
  /-- Nothing is presented. -/
  | noRequest
  /-- `op` is 5, 6 or 7 (30_encoding.md R44). -/
  | reservedOp
  /-- The bytes are fewer than the frame's `5 + L`, or fewer than 5 (41_framecodec.md R62). -/
  | truncated
  /-- The bytes are more than the frame's `5 + L` (41_framecodec.md R62). -/
  | malformed
  /-- The command byte is one of the 243 values that name no command (30_encoding.md R41). -/
  | unknownCommand
  deriving DecidableEq, Repr

/-- What the decoder answers. -/
inductive Decoded where
  | ok (i : Instr)
  | reject (r : Reject)
  deriving DecidableEq, Repr

/-- The operation `op` selects, with the ports it reads (30_encoding.md R44, 10_state.md R15). -/
def decodeOp (op : BitVec 3) (cmdIn : Byte) (input : List Byte) : Decoded :=
  match op.toNat with
  | 0 => .ok (.csum16 input)
  | 1 => .ok (.validate input)
  | 2 => .ok (.encode cmdIn input)
  | 3 => .ok (.decode input)
  | 4 => .ok (.classify cmdIn)
  | _ => .reject .reservedOp

/-- The instruction of a command row with the given fields; `UnknownCommand` is no row. -/
def commandInstr (command : Command) (length : Half) (payload : List Byte) (checksum : Half) : Decoded :=
  match command with
  | .requestFileName => .ok (.requestFileName length payload checksum)
  | .replyFileName => .ok (.replyFileName length payload checksum)
  | .probeRequest => .ok (.probeRequest length payload checksum)
  | .probeResponse => .ok (.probeResponse length payload checksum)
  | .capabilityNego => .ok (.capabilityNego length payload checksum)
  | .capabilityAck => .ok (.capabilityAck length payload checksum)
  | .switchBaudrate => .ok (.switchBaudrate length payload checksum)
  | .switchAck => .ok (.switchAck length payload checksum)
  | .connectionReady => .ok (.connectionReady length payload checksum)
  | .requestFileSize => .ok (.requestFileSize length payload checksum)
  | .replyFileSize => .ok (.replyFileSize length payload checksum)
  | .requestData => .ok (.requestData length payload checksum)
  | .sendData => .ok (.sendData length payload checksum)
  | .unknownCommand => .reject .unknownCommand

/-- The instruction a frame's bytes are: fields cut out as 30_encoding.md R35 and R37 to R39 say, the row chosen by all eight
bits of byte 0 (R40) and `CMD_TABLE`. The checksum is an operand here: whether it is right is for the meaning to say. -/
def decodeFrame (cmdTable : CommandTable) : List Byte → Decoded
  | command :: l0 :: l1 :: rest =>
    let length := fromLe16 l0 l1
    if rest.length < length.toNat + 2 then .reject .truncated
    else if length.toNat + 2 < rest.length then .reject .malformed
    else
      match rest.drop length.toNat with
      | [c0, c1] => commandInstr (classifyBy cmdTable command) length (rest.take length.toNat) (fromLe16 c0 c1)
      | _ => .reject .malformed
  | _ => .reject .truncated

/-- The decoder for any command table: total on whatever is presented. -/
def decodeRequestWith (cmdTable : CommandTable) : Request → Decoded
  | .idle => .reject .noRequest
  | .transaction op cmdIn input => decodeOp op cmdIn input
  | .frame bytes => decodeFrame cmdTable bytes

/-- The decoder of spec/opcode_table.json, whose words are the default table's. -/
def decodeRequest (r : Request) : Decoded := decodeRequestWith commandTable r

/-- The encoder, from 30_encoding.md R44 (operations; a port the operation ignores is driven with 0 or nothing) and R35, R40
(commands). -/
def encode : Instr → Request
  | .csum16 input => .transaction 0#3 0#8 input
  | .validate input => .transaction 1#3 0#8 input
  | .encode cmdIn input => .transaction 2#3 cmdIn input
  | .decode input => .transaction 3#3 0#8 input
  | .classify cmdIn => .transaction 4#3 cmdIn []
  | .requestFileName length payload checksum => .frame (frameBytes 0x51#8 length payload checksum)
  | .replyFileName length payload checksum => .frame (frameBytes 0x52#8 length payload checksum)
  | .probeRequest length payload checksum => .frame (frameBytes 0x41#8 length payload checksum)
  | .probeResponse length payload checksum => .frame (frameBytes 0x42#8 length payload checksum)
  | .capabilityNego length payload checksum => .frame (frameBytes 0x43#8 length payload checksum)
  | .capabilityAck length payload checksum => .frame (frameBytes 0x44#8 length payload checksum)
  | .switchBaudrate length payload checksum => .frame (frameBytes 0x45#8 length payload checksum)
  | .switchAck length payload checksum => .frame (frameBytes 0x46#8 length payload checksum)
  | .connectionReady length payload checksum => .frame (frameBytes 0x47#8 length payload checksum)
  | .requestFileSize length payload checksum => .frame (frameBytes 0x61#8 length payload checksum)
  | .replyFileSize length payload checksum => .frame (frameBytes 0x62#8 length payload checksum)
  | .requestData length payload checksum => .frame (frameBytes 0x63#8 length payload checksum)
  | .sendData length payload checksum => .frame (frameBytes 0x64#8 length payload checksum)

/-- The two formats of spec/opcode_table.json: `OP` words stand on the `op` port, `FRAME` words are byte 0 of a frame. -/
inductive RowFormat where
  | op
  | frame
  deriving DecidableEq, Repr

/-- One row of spec/opcode_table.json: a word `w` is this row's when `w &&& mask = value`. -/
structure OpcodeRow where
  mnemonic : String
  format : RowFormat
  mask : Nat
  value : Nat
  deriving DecidableEq, Repr

/-- The row of spec/opcode_table.json an instruction belongs to. -/
def opcodeRow : Instr → OpcodeRow
  | .csum16 _ => ⟨"CSUM16", .op, 0x7, 0x0⟩
  | .validate _ => ⟨"VALIDATE", .op, 0x7, 0x1⟩
  | .encode _ _ => ⟨"ENCODE", .op, 0x7, 0x2⟩
  | .decode _ => ⟨"DECODE", .op, 0x7, 0x3⟩
  | .classify _ => ⟨"CLASSIFY", .op, 0x7, 0x4⟩
  | .requestFileName _ _ _ => ⟨"REQUEST_FILE_NAME", .frame, 0xFF, 0x51⟩
  | .replyFileName _ _ _ => ⟨"REPLY_FILE_NAME", .frame, 0xFF, 0x52⟩
  | .probeRequest _ _ _ => ⟨"PROBE_REQUEST", .frame, 0xFF, 0x41⟩
  | .probeResponse _ _ _ => ⟨"PROBE_RESPONSE", .frame, 0xFF, 0x42⟩
  | .capabilityNego _ _ _ => ⟨"CAPABILITY_NEGO", .frame, 0xFF, 0x43⟩
  | .capabilityAck _ _ _ => ⟨"CAPABILITY_ACK", .frame, 0xFF, 0x44⟩
  | .switchBaudrate _ _ _ => ⟨"SWITCH_BAUDRATE", .frame, 0xFF, 0x45⟩
  | .switchAck _ _ _ => ⟨"SWITCH_ACK", .frame, 0xFF, 0x46⟩
  | .connectionReady _ _ _ => ⟨"CONNECTION_READY", .frame, 0xFF, 0x47⟩
  | .requestFileSize _ _ _ => ⟨"REQUEST_FILE_SIZE", .frame, 0xFF, 0x61⟩
  | .replyFileSize _ _ _ => ⟨"REPLY_FILE_SIZE", .frame, 0xFF, 0x62⟩
  | .requestData _ _ _ => ⟨"REQUEST_DATA", .frame, 0xFF, 0x63⟩
  | .sendData _ _ _ => ⟨"SEND_DATA", .frame, 0xFF, 0x64⟩

/-- The word a presented request shows to the opcode table, with the format it is read in. -/
def selectWord : Request → Option (RowFormat × Nat)
  | .idle => none
  | .transaction op _ _ => some (.op, op.toNat)
  | .frame [] => none
  | .frame (command :: _) => some (.frame, command.toNat)

/-- The frame that begins with the given bytes, completed with zero bytes to the `5 + L` that its length field asks for
(a length byte that is not there is 0). -/
def zeroCompleted (bytes : List Byte) : List Byte :=
  bytes ++ List.replicate (5 + (fromLe16 (bytes.getD 1 0#8) (bytes.getD 2 0#8)).toNat - bytes.length) 0#8

/-- The request that a word of spec/opcode_table.json stands for. A word whose first byte is below 8 fits the 3-bit `op` port
and is an operation, its other ports 0 and nothing; any other word is the first bytes of a frame, the rest of the frame
zero. No row of one format has a word of the other's range. Log entry 3. -/
def requestOfTableWord (nbits w : Nat) : Request :=
  let bytes := bytesLe (max 1 ((nbits + 7) / 8)) w
  if w % 256 < 8 then .transaction (BitVec.ofNat 3 (w % 256)) 0#8 []
  else .frame (zeroCompleted bytes)

/-- The instruction the decoder reads from a word of spec/opcode_table.json (bit 0 is the least significant bit of the first
byte; every bit above `nbits` is 0). -/
def decodeTableWord (nbits w : Nat) : Option Instr :=
  match decodeRequest (requestOfTableWord nbits w) with
  | .ok i => some i
  | .reject _ => none

end Sys2Proof
end

