-- ==== Sys2Proof/Machine/State.lean ====
section
/-! DEFINITION. The state. The block's own state is the unit type (`BlockState`; 10_state.md R10 to R14, R19): no register, program
counter, flag, mode, mask or accumulator, and nothing of one transaction reaches another. `State` is what stands around it for
the host's step: the input ports as the caller presents them and the output ports with the answer of the last step, which no
step reads. Log entry 1. -/

namespace Sys2Proof.Machine

/-- The `status` output (30_encoding.md R45, 60_exceptions.md R95). The code is `Status.code` in Machine/Flags.lean. -/
inductive Status where
  | ok
  | truncated
  | checksumMismatch
  | malformed
  | payloadTooLarge
  | illegalOp
  deriving DecidableEq, Repr

/-- The output ports of 10_state.md R16. `none` is ABSENT: the port has no value (92_eei_decisions.md D11,
93_implementation_defined.md U2). `n_out` is the length of `out`; `known_out` and `kind_out` are two views of `kind`
(30_encoding.md R46); all three are computed in Machine/Flags.lean. -/
structure Outputs where
  /-- `status`, 3 bits. -/
  status : Option Status := none
  /-- `csum_out`, 16 bits. -/
  csumOut : Option Half := none
  /-- `valid_out`, 1 bit. -/
  validOut : Option Bool := none
  /-- `OUT`, a byte sequence. -/
  out : Option (List Byte) := none
  /-- `cmd_out`, 8 bits. -/
  cmdOut : Option Byte := none
  /-- `len_out`, 16 bits. -/
  lenOut : Option Half := none
  /-- The command named: `known_out` (1 bit) and `kind_out` (4 bits). -/
  kind : Option Command := none
  deriving DecidableEq, Repr

/-- The block's state: there is none, so its type has one value (10_state.md R10 "its state type is the unit type"). -/
abbrev BlockState := Unit

/-- What the host's step runs on: the block's input ports (10_state.md R15) and output ports (R16). The block's own state has no field,
since it has one value. -/
structure State where
  /-- What the caller presents; the block only reads it (20_memory.md R20, 70_reset_and_hazards.md R121). -/
  request : Request
  /-- What the last step returned on the output ports: the caller's to read, and read by no step. -/
  outputs : Outputs
  deriving DecidableEq, Repr

/-- Accesses that 20_memory.md R21 gives no meaning. The spec says that no operation makes one, and a statement of
Certificates/Slice0/Obligations.lean says so of this model: no step ends in a fault. -/
inductive Fault where
  /-- `MemRead(a, n)` with `a + n > n_in`. Raised by the meanings of VALIDATE, DECODE and the commands, if a read of theirs
  were outside `IN`. Safe: the machine stops where a value would have been made up. -/
  | readOutsideInput
  /-- `MemWrite(a, n, v)` at an offset that is not the next one. Raised by the meaning of ENCODE, if its writes were not in
  increasing order without a gap. Safe: the machine stops. -/
  | writeOutOfOrder
  deriving DecidableEq, Repr

/-- Reasons to give an instruction no meaning. -/
inductive Refusal where
  /-- An instruction without a meaning, by its mnemonic. Raised by no arm of `exec`: every row has its meaning. Safe. -/
  | notModelled (mnemonic : String)
  deriving DecidableEq, Repr

/-- What a transaction returns to its caller: the output ports, or the access that has no meaning (00_scope.md R8, 10_state.md R16). A
procedure that gives a `Reply` takes the inputs of its transaction and nothing else (10_state.md R10). -/
abbrev Reply := Host.Outcome Outputs Fault Refusal

/-- The answer of a step or of a meaning. -/
abbrev Answer := Host.Outcome State Fault Refusal

/-- Right after reset: there is nothing to reset (70_reset_and_hazards.md R115), no output exists before the first transaction
(R116), and no caller has presented anything yet. -/
def State.reset : State where
  request := .idle
  outputs := {}

end Sys2Proof.Machine
end

