-- ==== Sys2Proof/Machine/Ops.lean ====
section
/-! DEFINITION. The named operations over the two byte sequences and the ports: reading `IN`, writing `OUT`, the checksum, delivering
results, reporting a condition, which stands in the place of taking an exception (60_exceptions.md R105), and putting a reply on the
output ports. -/

namespace Sys2Proof.Machine

/-- `MemRead(a, n)`: the bytes at offsets `a` to `a + n - 1`, defined only when all of them exist (20_memory.md R21). -/
def memRead (buffer : List Byte) (a n : Nat) : Option (List Byte) :=
  if a + n ≤ buffer.length then some ((buffer.drop a).take n) else none

/-- `MemWrite(a, n, v)` on the bytes of `OUT` written so far: every offset is written once, in increasing order, so `a` is the
next offset (20_memory.md R21). -/
def memWrite (out : List Byte) (a : Nat) (v : List Byte) : Option (List Byte) :=
  if a = out.length then some (out ++ v) else none

/-- The (address, byte) cells of a byte sequence that starts at an address. -/
def cellsFrom : Nat → List Byte → List Host.Cell
  | _, [] => []
  | a, b :: rest => (a, b) :: cellsFrom (a + 1) rest

/-- A byte sequence as memory cells: offset `i` holds the `i`-th byte (20_memory.md R20). An address that is not listed does not
exist: a read of it has no value. Log entry 4. -/
def cells (buffer : List Byte) : List Host.Cell := cellsFrom 0 buffer

/-- The canonical form of cells: addresses strictly rising. -/
abbrev Memory.wf (m : List Host.Cell) : Prop := (m.map Prod.fst).Pairwise (· < ·)

/-- CSUM16's loop: a 16-bit sum of the bytes that starts at 0 and drops the carry out of bit 15
(40_checksum.md R50, R52; 70_reset_and_hazards.md R118). -/
def csum16 (bytes : List Byte) : Half :=
  bytes.foldl (fun s b => s + b.setWidth 16) 0#16

/-- The frame of a command byte and a payload: length and checksum as 30_encoding.md R37 and R38 say. It means a frame for payloads
of at most 65535 bytes, the ones whose length fits the field. -/
def wireFrame (command : Byte) (payload : List Byte) : List Byte :=
  let length := BitVec.ofNat 16 payload.length
  frameBytes command length payload (csum16 (header command length ++ payload))

/-- `return OK(...)`: the transaction ends with the given outputs and no others (00_scope.md R8, 10_state.md R16). -/
def deliver (o : Outputs) : Reply := .next { o with status := some .ok }

/-- `raise <Status>`: the transaction ends with that status and no other output; nothing is saved, nothing jumps
(60_exceptions.md R102, R105). The one operation that reports a condition. -/
def report (st : Status) : Reply := .next { status := some st }

/-- A reply on the output ports, in place of whatever stood there: the one way a step changes a state. -/
def onPorts (reply : Reply) (s : State) : Answer :=
  match reply with
  | .next o => .next { s with outputs := o }
  | .fault f => .fault f
  | .refused r => .refused r

/-- The caller presents a request. The output ports keep what the last step left on them until the next step. -/
def present (r : Request) (s : State) : State := { s with request := r }

/-- The outputs of DECODE on `OK`: the Frame record (10_state.md R17, 41_framecodec.md R64). -/
def frameOutputs (f : Frame) : Outputs :=
  { cmdOut := some f.command, lenOut := some f.length, out := some f.payload, csumOut := some f.checksum }

end Sys2Proof.Machine
end

