-- ==== Sys2Proof/Machine/Operands.lean ====
section
/-! DEFINITION. The operand forms: a byte, a 16-bit little-endian field, and the fields of a frame inside a buffer
(20_memory.md R29, 30_encoding.md R35). Each is built on `memRead`, so none has a value outside the buffer. -/

namespace Sys2Proof.Machine

/-- The byte at an offset. -/
def byteAt (buffer : List Byte) (a : Nat) : Option Byte :=
  match memRead buffer a 1 with
  | some [b] => some b
  | _ => none

/-- The 16-bit field whose low byte stands at an offset: two byte accesses (20_memory.md R22, R27). -/
def le16At (buffer : List Byte) (a : Nat) : Option Half :=
  match memRead buffer a 2 with
  | some [b0, b1] => some (fromLe16 b0 b1)
  | _ => none

/-- The `length` field, at offsets 1 and 2 (30_encoding.md R37). -/
def lengthField (buffer : List Byte) : Option Half := le16At buffer 1

/-- `need = 5 + L`, a natural number that does not wrap (70_reset_and_hazards.md R120). -/
def frameSize (length : Half) : Nat := 5 + length.toNat

/-- The covered bytes, offsets `0` to `3 + L - 1` (40_checksum.md R55). -/
def coveredBytes (buffer : List Byte) (length : Half) : Option (List Byte) := memRead buffer 0 (3 + length.toNat)

/-- The payload, offsets `3` to `3 + L - 1` (30_encoding.md R35). -/
def payloadField (buffer : List Byte) (length : Half) : Option (List Byte) := memRead buffer 3 length.toNat

/-- The `checksum` field, at offsets `3 + L` and `4 + L` (30_encoding.md R38). -/
def checksumField (buffer : List Byte) (length : Half) : Option Half := le16At buffer (3 + length.toNat)

end Sys2Proof.Machine
end

