-- ==== Sys2Proof/Machine/Flags.lean ====
section
/-! DEFINITION. The block has no flags and no condition codes (10_state.md R13). What stands here in their place are the result codes:
the numbers of `status` (30_encoding.md R45), `known_out` and `kind_out` (R46), and the ports computed from others. -/

namespace Sys2Proof.Machine

/-- The 3-bit code of a status (30_encoding.md R45); 6 and 7 are never produced. -/
def Status.code : Status → BitVec 3
  | .ok => 0#3
  | .truncated => 1#3
  | .checksumMismatch => 2#3
  | .malformed => 3#3
  | .payloadTooLarge => 4#3
  | .illegalOp => 5#3

/-- `known_out`: 1 for the 13 known commands (30_encoding.md R46). -/
def knownBit : Command → BitVec 1
  | .unknownCommand => 0#1
  | _ => 1#1

/-- `kind_out`: the row number of 30_encoding.md R40, 15 for an unknown command; 13 and 14 are never produced (R46). -/
def kindCode : Command → BitVec 4
  | .requestFileName => 0#4
  | .replyFileName => 1#4
  | .probeRequest => 2#4
  | .probeResponse => 3#4
  | .capabilityNego => 4#4
  | .capabilityAck => 5#4
  | .switchBaudrate => 6#4
  | .switchAck => 7#4
  | .connectionReady => 8#4
  | .requestFileSize => 9#4
  | .replyFileSize => 10#4
  | .requestData => 11#4
  | .sendData => 12#4
  | .unknownCommand => 15#4

/-- `valid_out`: 1 when the recomputed and the received checksum are equal (40_checksum.md R53). -/
def validBit (calculated received : Half) : Bool := calculated == received

/-- The `status` port as its code (10_state.md R16). -/
def statusPort (o : Outputs) : Option (BitVec 3) := o.status.map Status.code

/-- The `known_out` port (10_state.md R16). -/
def knownOut (o : Outputs) : Option (BitVec 1) := o.kind.map knownBit

/-- The `kind_out` port (10_state.md R16). -/
def kindOut (o : Outputs) : Option (BitVec 4) := o.kind.map kindCode

/-- The `n_out` port, `n_out = |OUT|` (10_state.md R16). -/
def nOut (o : Outputs) : Option Nat := o.out.map List.length

/-- `IN`, the bytes the presented request offers to be read (10_state.md R15). -/
def inputBytes : Request → List Byte
  | .idle => []
  | .transaction _ _ input => input
  | .frame bytes => bytes

/-- The `n_in` port, `n_in = |IN|` (10_state.md R15). -/
def nIn (r : Request) : Nat := (inputBytes r).length

end Sys2Proof.Machine
end

