-- ==== Sys2Proof/Machine/Checksum.lean ====
section
/-! DEFINITION. The checksum family: CSUM16 and VALIDATE (spec file 40_checksum.md). -/

namespace Sys2Proof.Machine

/-- CSUM16's reply: the checksum of `IN`; always `OK` (40_checksum.md R50). -/
def csum16Reply (input : List Byte) : Reply := deliver { csumOut := some (csum16 input) }

/-- CSUM16 (40_checksum.md R50). -/
def execCsum16 (input : List Byte) (s : State) : Answer := onPorts (csum16Reply input) s

/-- VALIDATE's procedure: do the last two bytes spell the checksum of the bytes before them? Fewer than five bytes: no
(40_checksum.md R53). `none` is a read outside the buffer. -/
def validateBuffer (buffer : List Byte) : Option Bool :=
  if buffer.length < 5 then some false
  else
    (memRead buffer 0 (buffer.length - 2)).bind fun covered =>
    (le16At buffer (buffer.length - 2)).bind fun received =>
    some (validBit (csum16 covered) received)

/-- VALIDATE's reply: always `OK`; the answer is `valid_out` (40_checksum.md R53). -/
def validateReply (input : List Byte) : Reply :=
  match validateBuffer input with
  | some v => deliver { validOut := some v }
  | none => .fault .readOutsideInput

/-- VALIDATE (40_checksum.md R53). -/
def execValidate (input : List Byte) (s : State) : Answer := onPorts (validateReply input) s

end Sys2Proof.Machine
end

