-- ==== Sys2Proof/Machine/FrameCodec.lean ====
section
/-! DEFINITION. The frame family: ENCODE and DECODE (spec file 41_framecodec.md). -/

namespace Sys2Proof.Machine

/-- How a procedure of the codec ends: with a value or with a reported condition (00_scope.md R8). -/
inductive Result (α : Type) where
  | ok (a : α)
  | raised (st : Status)
  deriving DecidableEq, Repr

/-- ENCODE's procedure: the size test before anything is written, then the four writes in the order of `OUT`
(41_framecodec.md R60). `none` is a write out of order. -/
def encodeFrame (command : Byte) (payload : List Byte) : Option (Result (List Byte)) :=
  if 65535 < payload.length then some (.raised .payloadTooLarge)
  else
    let length := BitVec.ofNat 16 payload.length
    let checksum := csum16 (header command length ++ payload)
    (memWrite [] 0 [command]).bind fun out =>
    (memWrite out 1 (le16 length)).bind fun out =>
    (memWrite out 3 payload).bind fun out =>
    (memWrite out (3 + payload.length) (le16 checksum)).bind fun out =>
    some (.ok out)

/-- ENCODE's reply: the frame on `OUT`, or `PAYLOAD_TOO_LARGE` and no other output (41_framecodec.md R60, 60_exceptions.md R96). -/
def encodeReply (cmdIn : Byte) (input : List Byte) : Reply :=
  match encodeFrame cmdIn input with
  | some (.ok out) => deliver { out := some out }
  | some (.raised st) => report st
  | none => .fault .writeOutOfOrder

/-- ENCODE (41_framecodec.md R60). -/
def execEncode (cmdIn : Byte) (input : List Byte) (s : State) : Answer := onPorts (encodeReply cmdIn input) s

/-- DECODE's procedure, its tests in the order of 41_framecodec.md R62. `none` is a read outside the buffer. -/
def decodeBuffer (buffer : List Byte) : Option (Result Frame) :=
  if buffer.length < 5 then some (.raised .truncated)
  else
    (lengthField buffer).bind fun length =>
    if buffer.length < frameSize length then some (.raised .truncated)
    else if frameSize length < buffer.length then some (.raised .malformed)
    else
      (coveredBytes buffer length).bind fun covered =>
      (checksumField buffer length).bind fun received =>
      if csum16 covered ≠ received then some (.raised .checksumMismatch)
      else
        (byteAt buffer 0).bind fun command =>
        (payloadField buffer length).bind fun payload =>
        some (.ok { command, length, payload, checksum := received })

/-- DECODE's reply: the Frame record, or one of `TRUNCATED`, `MALFORMED`, `CHECKSUM_MISMATCH` and no other output
(41_framecodec.md R62, R64). -/
def decodeReply (input : List Byte) : Reply :=
  match decodeBuffer input with
  | some (.ok f) => deliver (frameOutputs f)
  | some (.raised st) => report st
  | none => .fault .readOutsideInput

/-- DECODE (41_framecodec.md R62). -/
def execDecode (input : List Byte) (s : State) : Answer := onPorts (decodeReply input) s

end Sys2Proof.Machine
end

