-- ==== Sys2Proof/Machine/Commands.lean ====
section
/-! DEFINITION. The command family: CLASSIFY and the thirteen commands (spec file 42_commands.md), and what a step does with what is no
row of the opcode table. -/

namespace Sys2Proof.Machine

/-- CLASSIFY's reply: the command byte named by `CMD_TABLE`; always `OK` (42_commands.md R75, 92_eei_decisions.md D19). -/
def classifyReply (cmdTable : CommandTable) (cmdIn : Byte) : Reply := deliver { kind := some (classifyBy cmdTable cmdIn) }

/-- CLASSIFY by the default table (42_commands.md R75). -/
def execClassify (cmdIn : Byte) (s : State) : Answer := onPorts (classifyReply commandTable cmdIn) s

/-- A frame arrives at the receiving side: DECODE takes it apart and, when that ends with `OK`, CLASSIFY names its command byte.
The payload is handed on unchanged and unread (42_commands.md R76 to R88 'Operation: carried unchanged. CLASSIFY gives
kind <n>', 41_framecodec.md R72, 95_test_vectors.md V6.20 to V6.35). A condition of DECODE is reported as DECODE reports it,
and nothing is classified. The names are `CMD_TABLE`'s. Log entry 2. -/
def receiveReply (cmdTable : CommandTable) (bytes : List Byte) : Reply :=
  match decodeBuffer bytes with
  | some (.ok f) => deliver { frameOutputs f with kind := some (classifyBy cmdTable f.command) }
  | some (.raised st) => report st
  | none => .fault .readOutsideInput

/-- The receipt of a frame, named by the default table, its reply put on the output ports. -/
def receive (bytes : List Byte) (s : State) : Answer := onPorts (receiveReply commandTable bytes) s

/-- REQUEST_FILE_NAME, command `0x51` (42_commands.md R76). -/
def execRequestFileName (length : Half) (payload : List Byte) (checksum : Half) (s : State) : Answer :=
  receive (frameBytes 0x51#8 length payload checksum) s

/-- REPLY_FILE_NAME, command `0x52` (42_commands.md R77). -/
def execReplyFileName (length : Half) (payload : List Byte) (checksum : Half) (s : State) : Answer :=
  receive (frameBytes 0x52#8 length payload checksum) s

/-- PROBE_REQUEST, command `0x41` (42_commands.md R78). -/
def execProbeRequest (length : Half) (payload : List Byte) (checksum : Half) (s : State) : Answer :=
  receive (frameBytes 0x41#8 length payload checksum) s

/-- PROBE_RESPONSE, command `0x42` (42_commands.md R79). -/
def execProbeResponse (length : Half) (payload : List Byte) (checksum : Half) (s : State) : Answer :=
  receive (frameBytes 0x42#8 length payload checksum) s

/-- CAPABILITY_NEGO, command `0x43` (42_commands.md R80). -/
def execCapabilityNego (length : Half) (payload : List Byte) (checksum : Half) (s : State) : Answer :=
  receive (frameBytes 0x43#8 length payload checksum) s

/-- CAPABILITY_ACK, command `0x44` (42_commands.md R81). -/
def execCapabilityAck (length : Half) (payload : List Byte) (checksum : Half) (s : State) : Answer :=
  receive (frameBytes 0x44#8 length payload checksum) s

/-- SWITCH_BAUDRATE, command `0x45` (42_commands.md R82). -/
def execSwitchBaudrate (length : Half) (payload : List Byte) (checksum : Half) (s : State) : Answer :=
  receive (frameBytes 0x45#8 length payload checksum) s

/-- SWITCH_ACK, command `0x46` (42_commands.md R83). -/
def execSwitchAck (length : Half) (payload : List Byte) (checksum : Half) (s : State) : Answer :=
  receive (frameBytes 0x46#8 length payload checksum) s

/-- CONNECTION_READY, command `0x47` (42_commands.md R84). -/
def execConnectionReady (length : Half) (payload : List Byte) (checksum : Half) (s : State) : Answer :=
  receive (frameBytes 0x47#8 length payload checksum) s

/-- REQUEST_FILE_SIZE, command `0x61` (42_commands.md R85). -/
def execRequestFileSize (length : Half) (payload : List Byte) (checksum : Half) (s : State) : Answer :=
  receive (frameBytes 0x61#8 length payload checksum) s

/-- REPLY_FILE_SIZE, command `0x62` (42_commands.md R86). -/
def execReplyFileSize (length : Half) (payload : List Byte) (checksum : Half) (s : State) : Answer :=
  receive (frameBytes 0x62#8 length payload checksum) s

/-- REQUEST_DATA, command `0x63` (42_commands.md R87). -/
def execRequestData (length : Half) (payload : List Byte) (checksum : Half) (s : State) : Answer :=
  receive (frameBytes 0x63#8 length payload checksum) s

/-- SEND_DATA, command `0x64` (42_commands.md R88). -/
def execSendData (length : Half) (payload : List Byte) (checksum : Half) (s : State) : Answer :=
  receive (frameBytes 0x64#8 length payload checksum) s

/-- What a step does with a request that is no row of the opcode table. Nothing presented: no transaction, so
no outputs, those of an earlier one neither (10_state.md R10, R12, 70_reset_and_hazards.md R116 "outputs exist only as the result of a
step"; log entry 1). A reserved `op`: `ILLEGAL_OP` and no other output (60_exceptions.md R101). Bytes that are no frame of a known command: the
receiving side handles them as it handles every frame, so a short buffer is `TRUNCATED`, a long one `MALFORMED`, and an
unknown command is carried and named `UnknownCommand` (30_encoding.md R41, 60_exceptions.md R100). -/
def answerRejected (r : Reject) (s : State) : Answer :=
  match r with
  | .noRequest => onPorts (.next {}) s
  | .reservedOp => onPorts (report .illegalOp) s
  | .truncated => receive (inputBytes s.request) s
  | .malformed => receive (inputBytes s.request) s
  | .unknownCommand => receive (inputBytes s.request) s

end Sys2Proof.Machine
end

