-- ==== Sys2Proof/Machine/Dispatch.lean ====
section
/-! DEFINITION. The dispatch: one arm per constructor of `Instr`. -/

namespace Sys2Proof.Machine

def exec (i : Instr) (s : State) : Host.Outcome State Fault Refusal :=
  match i with
  -- The operations (30_encoding.md R44).
  | .csum16 input => Sys2Proof.Machine.execCsum16 input s
  | .validate input => Sys2Proof.Machine.execValidate input s
  | .encode cmdIn input => Sys2Proof.Machine.execEncode cmdIn input s
  | .decode input => Sys2Proof.Machine.execDecode input s
  | .classify cmdIn => Sys2Proof.Machine.execClassify cmdIn s
  -- The commands (30_encoding.md R40).
  | .requestFileName length payload checksum => Sys2Proof.Machine.execRequestFileName length payload checksum s
  | .replyFileName length payload checksum => Sys2Proof.Machine.execReplyFileName length payload checksum s
  | .probeRequest length payload checksum => Sys2Proof.Machine.execProbeRequest length payload checksum s
  | .probeResponse length payload checksum => Sys2Proof.Machine.execProbeResponse length payload checksum s
  | .capabilityNego length payload checksum => Sys2Proof.Machine.execCapabilityNego length payload checksum s
  | .capabilityAck length payload checksum => Sys2Proof.Machine.execCapabilityAck length payload checksum s
  | .switchBaudrate length payload checksum => Sys2Proof.Machine.execSwitchBaudrate length payload checksum s
  | .switchAck length payload checksum => Sys2Proof.Machine.execSwitchAck length payload checksum s
  | .connectionReady length payload checksum => Sys2Proof.Machine.execConnectionReady length payload checksum s
  | .requestFileSize length payload checksum => Sys2Proof.Machine.execRequestFileSize length payload checksum s
  | .replyFileSize length payload checksum => Sys2Proof.Machine.execReplyFileSize length payload checksum s
  | .requestData length payload checksum => Sys2Proof.Machine.execRequestData length payload checksum s
  | .sendData length payload checksum => Sys2Proof.Machine.execSendData length payload checksum s

end Sys2Proof.Machine
end

