-- ==== Sys2Proof/Machine/Step.lean ====
section
/-! DEFINITION. One step is one transaction (00_scope.md R8, 92_eei_decisions.md D1), or the receipt of one frame: decode what is
presented and run it. -/

namespace Sys2Proof.Machine

/-- One step: the decoded instruction is run; what is no instruction is answered by `answerRejected`. -/
def step (s : State) : Host.Outcome State Fault Refusal :=
  match decodeRequest s.request with
  | .ok i => exec i s
  | .reject r => answerRejected r s

/-- The state with the instruction of an opcode-table word presented, so that the next step runs it. -/
def State.withFetchWord (s : State) (nbits w : Nat) : State := present (requestOfTableWord nbits w) s

end Sys2Proof.Machine
end

