-- ==== Sys2Proof/Machine/Block.lean ====
section
/-! DEFINITION. The block in the form 10_state.md R10 gives a model of it: a total function from the inputs of one transaction to its outputs,
over the unit type as state, with the parameter `CMD_TABLE` an argument (00_scope.md R5, 92_eei_decisions.md D19). It is written from the
procedures alone, without decoder or `Instr`. `machineWith` is the host's machine for any command table; that the machine of
Machine/Core.lean, whose `Instr` are the rows of the default table, is `machineWith commandTable` is a statement of
Certificates/Slice0/Obligations.lean. -/

namespace Sys2Proof.Machine

/-- The reply to what is presented. `op` selects the procedure (30_encoding.md R44); 5 to 7 are `ILLEGAL_OP` (60_exceptions.md R101, log
entry 5); a frame is received (log entry 2); with nothing presented there is no transaction and no output (log entry 1). -/
def transact (cmdTable : CommandTable) : Request → Reply
  | .idle => .next {}
  | .transaction op cmdIn input =>
    match op.toNat with
    | 0 => csum16Reply input
    | 1 => validateReply input
    | 2 => encodeReply cmdIn input
    | 3 => decodeReply input
    | 4 => classifyReply cmdTable cmdIn
    | _ => report .illegalOp
  | .frame bytes => receiveReply cmdTable bytes

/-- One step of the block: "its step takes the inputs of rule R15 and returns the outputs of rule R16, and its state type is the unit
type" (10_state.md R10). -/
def block (cmdTable : CommandTable) (state : BlockState) (inputs : Request) : BlockState × Reply := (state, transact cmdTable inputs)

/-- A step of the machine for any command table: the block's reply on the output ports. -/
def stepWith (cmdTable : CommandTable) (s : State) : Answer := onPorts (block cmdTable () s.request).2 s

/-- The machine with `CMD_TABLE` as its argument (92_eei_decisions.md D19 "so that a claim can quantify over it"). -/
def machineWith (cmdTable : CommandTable) : Host.Core where
  State := State
  Fault := Fault
  Refusal := Refusal
  step := stepWith cmdTable
  reset := State.reset

end Sys2Proof.Machine
end

