-- ==== Sys2Proof/Config.lean ====
section
/-! DEFINITION. The one parameter the spec leaves OPEN and gives no default: `PAYLOAD_FIELD_ORDER`
(92_eei_decisions.md D17). The fixed parameters of 00_scope.md R4 are numerals where they are used, and the
parameter `CMD_TABLE` (D19), which has a default, is an argument of every function that reads it: its type `CommandTable` and its default
`commandTable` stand in Sys2Proof/Decode.lean, and the machine for any table is `machineWith` in Sys2Proof/Machine/Block.lean. -/

namespace Sys2Proof

/-- The two byte orders a multi-byte payload field can have (30_encoding.md R43). -/
inductive ByteOrder where
  | little
  | big
  deriving DecidableEq, Repr, Inhabited

/-- `PAYLOAD_FIELD_ORDER`: the byte order of payload fields the source writes without `-le`.
OPEN in the spec (92_eei_decisions.md D17), so it has no body here and no proof can see its value.
No operation of the block reads it: only the caller's payload builders of Machine/Payload.lean do.
Log entry 10. -/
opaque Config.payloadFieldOrder : ByteOrder

end Sys2Proof
end

