-- ==== Sys2Proof/Machine/Payload.lean ====
section
/-! DEFINITION. The payload column of the opcode table made exact (42_commands.md R76 to R89): what a caller puts into the payload of
each command, who sends it and which reply it calls for. No operation of the block uses anything of this file: the block
carries every payload unchanged and checks none (41_framecodec.md R72, 93_implementation_defined.md U6). Sizes and offsets
assume that fields are packed (30_encoding.md R43). Log entry 10. -/

namespace Sys2Proof.Machine

/-- How the spec gives the byte order of a field (30_encoding.md R43). -/
inductive FieldOrder where
  /-- One byte: no order. -/
  | single
  /-- Written with `-le`. -/
  | littleEndian
  /-- Not stated: the parameter `PAYLOAD_FIELD_ORDER`. -/
  | notStated
  deriving DecidableEq, Repr

/-- One typed field of a payload. -/
structure PayloadField where
  name : String
  width : Nat
  order : FieldOrder
  deriving DecidableEq, Repr

/-- What follows the typed fields (30_encoding.md R40). -/
inductive PayloadTail where
  /-- Nothing. -/
  | nothing
  /-- A list of entries of four bytes each, with no count field (42_commands.md R79). -/
  | words32
  /-- An optional path whose delimiting is not stated (42_commands.md R80). -/
  | optionalPath
  /-- A path behind a length prefix whose width is not stated, nor whether an empty name has one (42_commands.md R77). -/
  | prefixedPath
  /-- Raw bytes (42_commands.md R88). -/
  | raw
  deriving DecidableEq, Repr

/-- The typed fields of a command's payload, in the order of the list (30_encoding.md R40, R43). -/
def payloadFields : Command → List PayloadField
  | .requestFileName => []
  | .replyFileName => []
  | .probeRequest => [⟨"device_id", 4, .notStated⟩, ⟨"version", 1, .single⟩, ⟨"random_seed", 4, .notStated⟩]
  | .probeResponse => [⟨"device_id", 4, .notStated⟩, ⟨"version", 1, .single⟩, ⟨"random_seed", 4, .notStated⟩]
  | .capabilityNego =>
    [⟨"session_id", 4, .notStated⟩, ⟨"mode", 1, .single⟩, ⟨"file_count", 4, .notStated⟩,
     ⟨"total_size", 8, .notStated⟩, ⟨"baudrate", 4, .notStated⟩, ⟨"chunk_size", 2, .notStated⟩]
  | .capabilityAck => [⟨"session_id", 4, .notStated⟩, ⟨"status", 1, .single⟩]
  | .switchBaudrate => [⟨"session_id", 4, .notStated⟩, ⟨"baudrate", 4, .notStated⟩, ⟨"delay_ms", 2, .notStated⟩]
  | .switchAck => [⟨"session_id", 4, .notStated⟩]
  | .connectionReady => [⟨"session_id", 4, .notStated⟩]
  | .requestFileSize => [⟨"marker", 2, .notStated⟩]
  | .replyFileSize => [⟨"size", 4, .littleEndian⟩]
  | .requestData => [⟨"offset", 4, .littleEndian⟩, ⟨"length", 2, .littleEndian⟩]
  | .sendData => []
  | .unknownCommand => []

/-- What follows the typed fields of a command's payload. -/
def payloadTail : Command → PayloadTail
  | .replyFileName => .prefixedPath
  | .probeResponse => .words32
  | .capabilityNego => .optionalPath
  | .sendData => .raw
  | .unknownCommand => .raw
  | _ => .nothing

/-- The bytes of the typed fields when they are packed (42_commands.md R89). -/
def packedSize (c : Command) : Nat := ((payloadFields c).map PayloadField.width).sum

/-- Does a payload of `n` bytes have a size that the table gives the command or leaves open (42_commands.md R89)? An unknown command has no
row. Where the source leaves a size open the model counts it as following the table (log entry 16, DESIGN CHOICE): for REPLY_FILE_NAME
every size a frame can carry, 0 among them, though R77 does not state whether an empty name is an empty payload or a prefix of value
0, nor the prefix's width, nor what the 512 bounds (91_not_in_source.md N10, 90_conflicts.md C2); for PROBE_RESPONSE the empty list,
9 bytes, though R79 does not say whether it is allowed; for CAPABILITY_NEGO every size from 23, though R80 does not state how
`root_path` is delimited. -/
def sizeFollowsTable (c : Command) (n : Nat) : Bool :=
  match c, payloadTail c with
  | .unknownCommand, _ => false
  | c, .nothing => n == packedSize c
  | c, .words32 => packedSize c ≤ n && (n - packedSize c) % 4 == 0 && n ≤ 65535
  | c, .optionalPath => packedSize c ≤ n && n ≤ 65535
  | _, .prefixedPath => n ≤ 65535
  | _, .raw => n ≤ 65535

/-- Who sends a command (42_commands.md R89). -/
inductive Party where
  | receiver
  | sender
  | initiator
  | responder
  | both
  deriving DecidableEq, Repr

/-- The sender column of 42_commands.md R89. -/
def senderOf : Command → Option Party
  | .requestFileName => some .receiver
  | .replyFileName => some .sender
  | .probeRequest => some .initiator
  | .probeResponse => some .responder
  | .capabilityNego => some .initiator
  | .capabilityAck => some .responder
  | .switchBaudrate => some .initiator
  | .switchAck => some .responder
  | .connectionReady => some .both
  | .requestFileSize => some .receiver
  | .replyFileSize => some .sender
  | .requestData => some .receiver
  | .sendData => some .sender
  | .unknownCommand => none

/-- The reply column of 42_commands.md R89; `none` where it says none. -/
def replyTo : Command → Option Command
  | .requestFileName => some .replyFileName
  | .probeRequest => some .probeResponse
  | .capabilityNego => some .capabilityAck
  | .switchBaudrate => some .switchAck
  | .connectionReady => some .connectionReady
  | .requestFileSize => some .replyFileSize
  | .requestData => some .sendData
  | _ => none

/-- The bytes of a value in a byte order, from its little-endian bytes. -/
def inOrder (order : ByteOrder) (le : List Byte) : List Byte :=
  match order with
  | .little => le
  | .big => le.reverse

/-- The `k` bytes of a field whose byte order the source does not state. -/
def openField (k v : Nat) : List Byte := inOrder Config.payloadFieldOrder (bytesLe k v)

/-- "empty" (42_commands.md R76). -/
def requestFileNamePayload : List Byte := []

/-- "device_id:u32, version:u8, random_seed:u32" (42_commands.md R78). -/
def probeRequestPayload (deviceId : BitVec 32) (version : Byte) (randomSeed : BitVec 32) : List Byte :=
  openField 4 deviceId.toNat ++ [version] ++ openField 4 randomSeed.toNat

/-- PROBE_REQUEST's fields and the baud-rate list (42_commands.md R79). -/
def probeResponsePayload (deviceId : BitVec 32) (version : Byte) (randomSeed : BitVec 32)
    (baudrates : List (BitVec 32)) : List Byte :=
  probeRequestPayload deviceId version randomSeed ++ baudrates.flatMap fun r => openField 4 r.toNat

/-- The fixed 23 bytes and the bytes of the optional root path as the caller delimits it (42_commands.md R80). -/
def capabilityNegoPayload (sessionId : BitVec 32) (mode : Byte) (fileCount : BitVec 32) (totalSize : BitVec 64)
    (baudrate : BitVec 32) (chunkSize : Half) (rootPath : List Byte) : List Byte :=
  openField 4 sessionId.toNat ++ [mode] ++ openField 4 fileCount.toNat ++ openField 8 totalSize.toNat ++
    openField 4 baudrate.toNat ++ openField 2 chunkSize.toNat ++ rootPath

/-- "session_id:u32, status:u8" (42_commands.md R81; 90_conflicts.md C3 takes this layout). -/
def capabilityAckPayload (sessionId : BitVec 32) (status : Byte) : List Byte :=
  openField 4 sessionId.toNat ++ [status]

/-- "session_id:u32, baudrate:u32, delay_ms:u16" (42_commands.md R82). -/
def switchBaudratePayload (sessionId baudrate : BitVec 32) (delayMs : Half) : List Byte :=
  openField 4 sessionId.toNat ++ openField 4 baudrate.toNat ++ openField 2 delayMs.toNat

/-- "session_id:u32" of SWITCH_ACK (42_commands.md R83). -/
def switchAckPayload (sessionId : BitVec 32) : List Byte := openField 4 sessionId.toNat

/-- "session_id:u32" of CONNECTION_READY (42_commands.md R84). -/
def connectionReadyPayload (sessionId : BitVec 32) : List Byte := openField 4 sessionId.toNat

/-- "fixed marker 0x55AA" as two bytes in a byte order (42_commands.md R85). -/
def requestFileSizePayload (order : ByteOrder) : List Byte := inOrder order (bytesLe 2 0x55AA)

/-- "size:u32-le" (42_commands.md R86). -/
def replyFileSizePayload (size : BitVec 32) : List Byte := bytesLe 4 size.toNat

/-- "offset:u32-le, length:u16-le" (42_commands.md R87). -/
def requestDataPayload (offset : BitVec 32) (length : Half) : List Byte :=
  bytesLe 4 offset.toNat ++ bytesLe 2 length.toNat

end Sys2Proof.Machine
end

