-- ==== Sys2Proof/Safety.lean ====
section
/-! DEFINITION. What counts as a good run, in the terms the statements use: the output ports hold only what 10_state.md R16 and R17 allow,
and every step goes on. Also the duties that 60_exceptions.md R107 gives the caller for each status. -/

namespace Sys2Proof.Safety

open Sys2Proof.Machine

/-- The invariants of a Frame record that DECODE delivers (10_state.md R17). -/
abbrev FrameValid (f : Frame) : Prop :=
  f.length.toNat = f.payload.length ∧ f.checksum = csum16 (header f.command f.length ++ f.payload)

/-- The patterns the output ports show, with the laws of their values, whichever operation ran (`PortsDefined` ties them to it): the sets of
ports that 10_state.md R16 defines together, nothing where there was no transaction (70_reset_and_hazards.md R116), the status alone
with a condition (60_exceptions.md R105), and `received`, the model's own pattern of the receipt of a frame (log entry 2). -/
inductive OutputsLegal : Outputs → Prop where
  | absent : OutputsLegal {}
  | checksum (c : Half) : OutputsLegal { status := some .ok, csumOut := some c }
  | verdict (v : Bool) : OutputsLegal { status := some .ok, validOut := some v }
  | encoded (command : Byte) (payload : List Byte) (h : payload.length ≤ 65535) :
      OutputsLegal { status := some .ok, out := some (wireFrame command payload) }
  | decoded (f : Frame) (h : FrameValid f) :
      OutputsLegal { frameOutputs f with status := some .ok }
  | received (f : Frame) (h : FrameValid f) :
      OutputsLegal { frameOutputs f with status := some .ok, kind := some (classifyByte f.command) }
  | named (c : Command) : OutputsLegal { status := some .ok, kind := some c }
  | condition (st : Status) (h : st ≠ .ok) : OutputsLegal { status := some st }

/-- The "defined when" column of 10_state.md R16: which output ports have a value, by the operation that ran and the status it ended with. -/
structure PortsDefined (op : BitVec 3) (o : Outputs) : Prop where
  always : o.status.isSome = true
  csumOut : o.csumOut.isSome = true ↔ op = 0#3 ∨ (op = 3#3 ∧ o.status = some .ok)
  validOut : o.validOut.isSome = true ↔ op = 1#3
  out : o.out.isSome = true ↔ (op = 2#3 ∨ op = 3#3) ∧ o.status = some .ok
  count : (nOut o).isSome = true ↔ (op = 2#3 ∨ op = 3#3) ∧ o.status = some .ok
  cmdOut : o.cmdOut.isSome = true ↔ op = 3#3 ∧ o.status = some .ok
  lenOut : o.lenOut.isSome = true ↔ op = 3#3 ∧ o.status = some .ok
  known : (knownOut o).isSome = true ↔ op = 4#3
  kind : (kindOut o).isSome = true ↔ op = 4#3

/-- The invariant of the machine. -/
abbrev Inv (s : State) : Prop := OutputsLegal s.outputs

/-- The step from this state goes on: no fault, no refusal. -/
abbrev GoesOn (s : State) : Prop := ∃ t, step s = .next t

/-- The output ports show a condition: a status other than `OK`, and no other output (60_exceptions.md R105). -/
abbrev OnlyReports (st : Status) (o : Outputs) : Prop := o = { status := some st }

/-- What the source tells the caller to do: the right column of 60_exceptions.md R107, with 90_conflicts.md C5 for `TRUNCATED`. -/
inductive CallerDuty where
  /-- Use the frame; dispatch on the command, matched exhaustively. -/
  | useFrame
  /-- Keep the bytes, append what arrives, decode again. -/
  | keepReading
  /-- Discard the frame; request retransmission upstream. -/
  | requestRetransmission
  /-- Discard and await the next, or request retransmission upstream. -/
  | discardOrRetransmit
  /-- R107 says "none given". -/
  | noneGiven
  /-- Must not be silently ignored. -/
  | notSilentlyIgnored
  deriving DecidableEq, Repr

/-- The caller's duty by the operation and the status it ended with (60_exceptions.md R107). It binds the caller; the block enforces none
of it. R107 speaks of `OK` from DECODE alone and has no row for `OK` from another operation, ENCODE among them, nor for `ILLEGAL_OP`:
the model gives no duty there, `none` (log entry 15, DESIGN CHOICE). -/
def callerDuty (op : BitVec 3) : Status → Option CallerDuty
  | .ok => if op = 3#3 then some .useFrame else none
  | .truncated => some .keepReading
  | .checksumMismatch => some .requestRetransmission
  | .malformed => some .discardOrRetransmit
  | .payloadTooLarge => some .noneGiven
  | .illegalOp => none

/-- The caller's duty by the command that CLASSIFY named: R107's row of UnknownCommand, and no row for a known command. -/
def commandDuty (c : Command) : Option CallerDuty :=
  if c = .unknownCommand then some .notSilentlyIgnored else none

end Sys2Proof.Safety
end

