-- ==== Sys2Proof/Certificates/Slice0/Obligations.lean ====
section
/-! DEFINITION. The statements for the provers. Where one says that `request` is as before, it rests on log entries 1 and 8: the ports
stand in State, and a step leaves on the input side what was presented. -/

open Sys2Proof Sys2Proof.Machine Sys2Proof.Safety

/-- A command row carries its payload: the frame with the row's command byte, a payload of at most 65535 bytes and the right length and
checksum is taken apart into exactly those fields, and its command is named. -/
def Sys2Proof.Claims.CarriedAs (row : Half → List Byte → Half → Instr) (value : Byte) (kind : Command) : Prop :=
  ∀ (payload : List Byte) (length checksum : Half) (s : State), payload.length = length.toNat →
    checksum = csum16 (header value length ++ payload) →
    exec (row length payload checksum) s = .next
      { request := s.request
        outputs :=
          { status := some .ok, cmdOut := some value, lenOut := some length, out := some payload,
            csumOut := some checksum, kind := some kind } }

/-- A command row reports a damaged frame and delivers nothing of it: a checksum that is not the one of the header and payload is
`CHECKSUM_MISMATCH`; a payload shorter than the length field says is `TRUNCATED`, a longer one `MALFORMED`. -/
def Sys2Proof.Claims.DamageReported (row : Half → List Byte → Half → Instr) (value : Byte) : Prop :=
  ∀ (payload : List Byte) (length checksum : Half) (s : State),
    (payload.length = length.toNat → checksum ≠ csum16 (header value length ++ payload) →
      exec (row length payload checksum) s =
        .next { request := s.request, outputs := { status := some .checksumMismatch } }) ∧
    (payload.length < length.toNat →
      exec (row length payload checksum) s =
        .next { request := s.request, outputs := { status := some .truncated } }) ∧
    (length.toNat < payload.length →
      exec (row length payload checksum) s =
        .next { request := s.request, outputs := { status := some .malformed } })

/-- `bytes` with bit `k` of the byte at offset `a` flipped (offset `a` inside). -/
def Sys2Proof.Claims.flipBit (bytes : List Byte) (a k : Nat) : List Byte :=
  bytes.set a ((bytes.getD a 0#8) ^^^ (1#8 <<< k))

/-- The sum of the bytes as natural numbers. -/
def Sys2Proof.Claims.byteSum (bytes : List Byte) : Nat := (bytes.map BitVec.toNat).sum

open Sys2Proof.Claims

/-! ## Encoding -/

/-- The words of all 18 rows of spec/opcode_table.json decode to their rows. That a word below 8 is read as the `op` port with the other
ports 0 and nothing, and any other word as byte 0 of a frame completed with zero bytes, is the model's choice (log entry 3, DESIGN
CHOICE); the command values are the source's unaudited table (log entry 9). And frames written out in 95_test_vectors.md V6.22,
V6.33 and V4.13 decode to their fields. -/
def Obligations.TableWordsDecodeToTheirRows : Prop :=
  decodeTableWord 8 0x00 = some (.csum16 []) ∧
  decodeTableWord 8 0x01 = some (.validate []) ∧
  decodeTableWord 8 0x02 = some (.encode 0#8 []) ∧
  decodeTableWord 8 0x03 = some (.decode []) ∧
  decodeTableWord 8 0x04 = some (.classify 0#8) ∧
  decodeTableWord 8 0x51 = some (.requestFileName 0#16 [] 0#16) ∧
  decodeTableWord 8 0x52 = some (.replyFileName 0#16 [] 0#16) ∧
  decodeTableWord 8 0x41 = some (.probeRequest 0#16 [] 0#16) ∧
  decodeTableWord 8 0x42 = some (.probeResponse 0#16 [] 0#16) ∧
  decodeTableWord 8 0x43 = some (.capabilityNego 0#16 [] 0#16) ∧
  decodeTableWord 8 0x44 = some (.capabilityAck 0#16 [] 0#16) ∧
  decodeTableWord 8 0x45 = some (.switchBaudrate 0#16 [] 0#16) ∧
  decodeTableWord 8 0x46 = some (.switchAck 0#16 [] 0#16) ∧
  decodeTableWord 8 0x47 = some (.connectionReady 0#16 [] 0#16) ∧
  decodeTableWord 8 0x61 = some (.requestFileSize 0#16 [] 0#16) ∧
  decodeTableWord 8 0x62 = some (.replyFileSize 0#16 [] 0#16) ∧
  decodeTableWord 8 0x63 = some (.requestData 0#16 [] 0#16) ∧
  decodeTableWord 8 0x64 = some (.sendData 0#16 [] 0#16) ∧
  decodeRequest (.frame [0x41, 0x09, 0x00, 0x78, 0x56, 0x34, 0x12, 0x02, 0xEF, 0xBE, 0xAD, 0xDE, 0x98, 0x04]) =
    .ok (.probeRequest 9#16 [0x78, 0x56, 0x34, 0x12, 0x02, 0xEF, 0xBE, 0xAD, 0xDE] 0x0498#16) ∧
  decodeRequest (.frame [0x63, 0x06, 0x00, 0x00, 0x00, 0x00, 0x00, 0x04, 0x00, 0x6D, 0x00]) =
    .ok (.requestData 6#16 [0x00, 0x00, 0x00, 0x00, 0x04, 0x00] 0x006D#16) ∧
  decodeRequest (.frame [0x64, 0x02, 0x00, 0x49, 0x4A, 0xF9, 0x00]) =
    .ok (.sendData 2#16 [0x49, 0x4A] 0x00F9#16)

/-- The operation codes of 30_encoding.md R44 (the spec's own decision D2: the source has no codes): 0 to 4 select the five operations
with the ports each reads, 5 to 7 select none. -/
def Obligations.OperationCodesSelectOperations : Prop :=
  ∀ (cmdIn : Byte) (input : List Byte),
    decodeRequest (.transaction 0#3 cmdIn input) = .ok (.csum16 input) ∧
    decodeRequest (.transaction 1#3 cmdIn input) = .ok (.validate input) ∧
    decodeRequest (.transaction 2#3 cmdIn input) = .ok (.encode cmdIn input) ∧
    decodeRequest (.transaction 3#3 cmdIn input) = .ok (.decode input) ∧
    decodeRequest (.transaction 4#3 cmdIn input) = .ok (.classify cmdIn) ∧
    decodeRequest (.transaction 5#3 cmdIn input) = .reject .reservedOp ∧
    decodeRequest (.transaction 6#3 cmdIn input) = .reject .reservedOp ∧
    decodeRequest (.transaction 7#3 cmdIn input) = .reject .reservedOp

/-- Headline: decoding what the encoder makes of a well-formed instruction, of any row, with any operands, gives it back. -/
def Obligations.DecodeOfEncodeIsTheInstruction : Prop :=
  ∀ i : Instr, i.wellFormed = true → decodeRequest (encode i) = .ok i

/-- The other direction for frames: bytes that decode to an instruction are the encoding of that instruction, which is well formed, so
no two byte strings are the same instruction and no byte of a frame is dropped. -/
def Obligations.DecodedFrameEncodesToItsBytes : Prop :=
  ∀ (bytes : List Byte) (i : Instr), decodeRequest (.frame bytes) = .ok i →
    i.wellFormed = true ∧ encode i = .frame bytes

/-- A frame of the right size is no instruction exactly when its command byte is none of the 13 values of 30_encoding.md R40 (R41). -/
def Obligations.UnknownCommandsAreRejectedByName : Prop :=
  ∀ (command : Byte) (length : Half) (payload : List Byte) (checksum : Half), payload.length = length.toNat →
    (decodeRequest (.frame (frameBytes command length payload checksum)) = .reject .unknownCommand ↔
      command ∉ [0x51#8, 0x52#8, 0x41#8, 0x42#8, 0x43#8, 0x44#8, 0x45#8, 0x46#8, 0x47#8, 0x61#8, 0x62#8, 0x63#8, 0x64#8])

/-! ## The step -/

/-- A step runs the decoded instruction and does nothing else. -/
def Obligations.StepRunsDecodedInstruction : Prop :=
  ∀ (s : State) (i : Instr), decodeRequest s.request = .ok i → step s = exec i s

/-- The receipt of any bytes at all, a frame of a known command, of an unknown one, or no frame, is what DECODE of these bytes answers, with
the command byte named when DECODE delivers one. That both transactions are one step is the model's choice (log entry 2). -/
def Obligations.ReceiptIsDecodeThenClassify : Prop :=
  ∀ (bytes : List Byte) (s t : State), exec (.decode bytes) s = .next t →
    step (present (.frame bytes) s) = .next
      { request := .frame bytes, outputs := { t.outputs with kind := t.outputs.cmdOut.map classifyByte } }

/-- With nothing presented there is no transaction, so the step leaves no outputs, and none of an earlier transaction are carried on
(10_state.md R10, R12; 70_reset_and_hazards.md R116 "outputs exist only as the result of a step"). That nothing may be presented at a
step at all is the model's choice (log entry 1, DESIGN CHOICE). -/
def Obligations.NothingPresentedLeavesNoOutputs : Prop :=
  ∀ outputs : Outputs, step { request := .idle, outputs } = .next { request := .idle, outputs := {} }

/-- A transaction with a reserved `op` ends with `ILLEGAL_OP`, code 5, and no other output, whatever the other ports carry (60_exceptions.md
R101, the spec's own decision D15: "A transaction whose `op` is 5, 6 or 7 ends with `status = 5` and no other output"). -/
def Obligations.ReservedOpReportsIllegalOp : Prop :=
  ∀ (op : BitVec 3) (cmdIn : Byte) (input : List Byte) (s : State), 5 ≤ op.toNat →
    step (present (.transaction op cmdIn input) s) = .next
      { request := .transaction op cmdIn input, outputs := { status := some .illegalOp } } ∧
    statusPort { status := some .illegalOp } = some 5#3

/-- Every step of every state answers a next state: no operation reads outside its buffer or writes out of order, which the spec says
(20_memory.md R21), and no request is refused. The second half rests on the model's own readings: a reserved `op` is answered with
`ILLEGAL_OP` (log entry 5, DEDUCED from 60_exceptions.md R101, where R101 and 93_implementation_defined.md U4 also call it a
refusal in the reader's terms), with nothing presented a step leaves no outputs (log entry 1, DESIGN CHOICE), and bytes presented as a
frame are received whatever they are (log entry 2, DESIGN CHOICE). -/
def Obligations.EveryStepGoesOn : Prop :=
  ∀ s : State, GoesOn s

/-- The frame of every instruction: the input side, so every byte of `IN` at every offset, is as before; nothing else could change but the
output ports. The spec's part is that no operation stores into `IN` (20_memory.md R20: the block only reads it); that the request
stands in State and is still presented after the step is the model's choice (log entries 1 and 8, DESIGN CHOICE). -/
def Obligations.InstructionsLeaveTheInputsAlone : Prop :=
  ∀ (i : Instr) (s t : State), exec i s = .next t →
    t.request = s.request ∧
    (∀ a n, memRead (inputBytes t.request) a n = memRead (inputBytes s.request) a n) ∧
    nIn t.request = nIn s.request

/-- A step's result depends on its own inputs alone, with a transaction presented, a frame or nothing: what earlier transactions left on the
output ports makes no difference, and "no transaction can observe that another took place" (10_state.md R10). -/
def Obligations.ResultDependsOnInputsAlone : Prop :=
  ∀ s₁ s₂ : State, s₁.request = s₂.request → step s₁ = step s₂

/-- Repeating a transaction with the same inputs gives the same outputs and changes nothing (20_memory.md R28, derived by the spec). That a
second step is the repetition is the model's choice (log entry 8, DESIGN CHOICE). -/
def Obligations.RepeatingATransactionChangesNothing : Prop :=
  ∀ s t : State, step s = .next t → step t = .next t

/-- A port an operation ignores has no effect (10_state.md R15, spec decision D1): `cmd_in` for CSUM16, VALIDATE and DECODE, `IN` for
CLASSIFY. -/
def Obligations.IgnoredPortsHaveNoEffect : Prop :=
  ∀ (op : BitVec 3) (cmdIn cmdIn' : Byte) (input input' : List Byte) (s t : State),
    (op = 0#3 ∨ op = 1#3 ∨ op = 3#3 →
      step (present (.transaction op cmdIn input) s) = .next t →
      step (present (.transaction op cmdIn' input) s) =
        .next { request := .transaction op cmdIn' input, outputs := t.outputs }) ∧
    (step (present (.transaction 4#3 cmdIn input) s) = .next t →
      step (present (.transaction 4#3 cmdIn input') s) =
        .next { request := .transaction 4#3 cmdIn input', outputs := t.outputs })

/-- After reset nothing is presented and no output port has a value (70_reset_and_hazards.md R115, R116, spec decision D13; that the input
side is 'nothing presented' is log entry 1). -/
def Obligations.ResetLeavesNoOutputs : Prop :=
  State.reset.request = .idle ∧ State.reset.outputs.status = none ∧ State.reset.outputs.csumOut = none ∧
  State.reset.outputs.validOut = none ∧ State.reset.outputs.out = none ∧ nOut State.reset.outputs = none ∧
  State.reset.outputs.cmdOut = none ∧ State.reset.outputs.lenOut = none ∧
  knownOut State.reset.outputs = none ∧ kindOut State.reset.outputs = none

/-- The reset state meets the invariant, its output ports absent (70_reset_and_hazards.md R116; log entry 7, DESIGN CHOICE). -/
def Obligations.ResetOutputsLegal : Prop := Inv State.reset

/-- Headline: from every state whose output ports show a legal pattern, every step leaves them in a legal pattern. The patterns are the sets
of ports that 10_state.md R16 defines together: `OK` with a checksum, with a verdict, with a wire frame of a payload that fits, with
a Frame record whose `length = |payload|` and whose checksum is right (R17), or with a named command; a condition alone
(60_exceptions.md R105); no port at all where there was no transaction (70_reset_and_hazards.md R116); and one that is no pair of R16 but the model's choice, a valid
Frame record with its command named, after the receipt of a frame (log entry 2, DESIGN CHOICE). Which operation leaves which pattern is
not said here: OutputPortsFollowTheOperation says it. -/
def Obligations.StepKeepsOutputsLegal : Prop :=
  ∀ s t : State, Inv s → step s = .next t → Inv t

/-- Every transaction ends with a status (10_state.md R16, spec decision D1: `status` is defined "always"), its code is never 6 or 7
(30_encoding.md R45, spec decision D3), and a status other than `OK` comes with no other output (60_exceptions.md R105), from EVERY
state, whatever the output ports held before. The step that receives a frame ends so too: R16 speaks of transactions, and that the
receipt is one step with one status is the model's choice (log entry 2, DESIGN CHOICE). For a reserved `op` it rests on log entry 5
(DEDUCED). -/
def Obligations.EveryTransactionEndsWithAStatus : Prop :=
  ∀ s t : State, s.request ≠ .idle → step s = .next t →
    ∃ st : Status, t.outputs.status = some st ∧ statusPort t.outputs ≠ some 6#3 ∧ statusPort t.outputs ≠ some 7#3 ∧
      (st ≠ .ok → OnlyReports st t.outputs)

/-! ## The checksum family -/

/-- CSUM16 (40_checksum.md R50): the sum of the bytes, each an unsigned number, mod 65536, on `csum_out`; `status` is `OK`; no other output. -/
def Obligations.Csum16IsTheSumOfTheBytes : Prop :=
  ∀ (input : List Byte) (s : State),
    exec (.csum16 input) s = .next
      { request := s.request
        outputs := { status := some .ok, csumOut := some (BitVec.ofNat 16 (byteSum input % 65536)) } }

/-- Laws (1) to (4), (7) and (8) of 40_checksum.md R51, which the spec derives from R50: empty, one byte, concatenation, order, zero bytes,
range. -/
def Obligations.ChecksumLaws : Prop :=
  csum16 [] = 0#16 ∧
  (∀ b : Byte, (csum16 [b]).toNat = b.toNat) ∧
  (∀ a b : List Byte, (csum16 (a ++ b)).toNat = ((csum16 a).toNat + (csum16 b).toNat) % 65536) ∧
  (∀ a b : List Byte, a.Perm b → csum16 a = csum16 b) ∧
  (∀ a b : List Byte, csum16 (a ++ 0x00#8 :: b) = csum16 (a ++ b)) ∧
  (∀ a : List Byte, a.length ≤ 257 → (csum16 a).toNat = byteSum a)

/-- Laws (5) and (6) of 40_checksum.md R51, which the spec derives from R50: one byte changed moves the checksum by the difference of the
bytes, so it always changes, and so does one bit flipped. -/
def Obligations.OneChangedByteChangesTheChecksum : Prop :=
  (∀ (a b : List Byte) (x y : Byte),
    ((csum16 (a ++ y :: b)).toNat + x.toNat) % 65536 = ((csum16 (a ++ x :: b)).toNat + y.toNat) % 65536 ∧
    (x ≠ y → csum16 (a ++ y :: b) ≠ csum16 (a ++ x :: b))) ∧
  (∀ (bytes : List Byte) (a k : Nat), a < bytes.length → k < 8 → csum16 (flipBit bytes a k) ≠ csum16 bytes)

/-- The carry out of bit 15 is discarded (40_checksum.md R52): the sum of `n` equal bytes wraps mod 65536 and nothing is added back in;
the most bytes a frame's checksum covers, all `FF`, give `0x01FE`. -/
def Obligations.ChecksumDropsTheCarry : Prop :=
  (∀ (n : Nat) (b : Byte), (csum16 (List.replicate n b)).toNat = n * b.toNat % 65536) ∧
  csum16 (List.replicate 65538 0xFF#8) = 0x01FE#16

/-- VALIDATE (40_checksum.md R53, whose threshold 5 is the spec's own decision D9): fewer than five bytes give 0; otherwise 1 exactly when
the last two bytes spell the checksum of the bytes before them. `status` is `OK`; no other output. -/
def Obligations.ValidateComparesTheTrailingChecksum : Prop :=
  (∀ (input : List Byte) (s : State), input.length < 5 →
    exec (.validate input) s = .next
      { request := s.request, outputs := { status := some .ok, validOut := some false } }) ∧
  (∀ (front : List Byte) (c0 c1 : Byte) (s : State), 3 ≤ front.length →
    exec (.validate (front ++ [c0, c1])) s = .next
      { request := s.request
        outputs :=
          { status := some .ok
            validOut := some (decide (byteSum front % 65536 = c0.toNat + 256 * c1.toNat)) } })

/-- VALIDATE and DECODE (40_checksum.md R54, derived by the spec): DECODE ends with `OK` if and only if the buffer has the size its length
field asks for and VALIDATE gives 1; at that size VALIDATE gives 0 exactly when DECODE ends with `CHECKSUM_MISMATCH`; at any
other size DECODE ends with `TRUNCATED` or `MALFORMED`. -/
def Obligations.DecodeIsSizeAndValidate : Prop :=
  ∀ (buffer : List Byte) (s t u : State), exec (.decode buffer) s = .next t → exec (.validate buffer) s = .next u →
    (t.outputs.status = some .ok ↔
      5 ≤ buffer.length ∧ buffer.length = 5 + (fromLe16 (buffer.getD 1 0#8) (buffer.getD 2 0#8)).toNat ∧
      u.outputs.validOut = some true) ∧
    (5 ≤ buffer.length → buffer.length = 5 + (fromLe16 (buffer.getD 1 0#8) (buffer.getD 2 0#8)).toNat →
      (u.outputs.validOut = some false ↔ t.outputs.status = some .checksumMismatch)) ∧
    (buffer.length ≠ 5 + (fromLe16 (buffer.getD 1 0#8) (buffer.getD 2 0#8)).toNat →
      t.outputs.status = some .truncated ∨ t.outputs.status = some .malformed)

/-! ## The frame family -/

/-- ENCODE (41_framecodec.md R60): for a payload of at most 65535 bytes `OUT` is the header, the payload and the checksum of both, low bytes
first, `n_out = 5 + n_in` and `status` is `OK`; for a longer one `PAYLOAD_TOO_LARGE` and no other output. -/
def Obligations.EncodeBuildsTheFrame : Prop :=
  ∀ (cmdIn : Byte) (input : List Byte) (s : State),
    (input.length ≤ 65535 →
      ∃ (length checksum : Half) (frame : List Byte),
        length.toNat = input.length ∧
        checksum.toNat = byteSum (cmdIn :: lo8 length :: hi8 length :: input) % 65536 ∧
        frame = cmdIn :: lo8 length :: hi8 length :: (input ++ [lo8 checksum, hi8 checksum]) ∧
        exec (.encode cmdIn input) s =
          .next { request := s.request, outputs := { status := some .ok, out := some frame } } ∧
        nOut { status := some .ok, out := some frame } = some (5 + input.length)) ∧
    (65535 < input.length →
      exec (.encode cmdIn input) s =
        .next { request := s.request, outputs := { status := some .payloadTooLarge } })

/-- `PAYLOAD_TOO_LARGE` when and only when `n_in > 65535`, with `OUT` and `n_out` absent (60_exceptions.md R96). -/
def Obligations.PayloadTooLargeExactlyAbove65535 : Prop :=
  ∀ (cmdIn : Byte) (input : List Byte) (s t : State), exec (.encode cmdIn input) s = .next t →
    (t.outputs.status = some .payloadTooLarge ↔ 65535 < input.length) ∧
    (65535 < input.length → t.outputs.out = none ∧ nOut t.outputs = none)

/-- The two multi-byte fields of a frame are little-endian (20_memory.md R22): `lo8(L)` at offset 1, `hi8(L)` at offset 2, `lo8(c)` at
offset `3 + L`, `hi8(c)` at offset `4 + L`, in every frame ENCODE makes. -/
def Obligations.FrameFieldsAreLittleEndian : Prop :=
  ∀ (cmdIn : Byte) (input frame : List Byte) (s t : State), exec (.encode cmdIn input) s = .next t →
    t.outputs.out = some frame →
    (byteAt frame 1).map BitVec.toNat = some (input.length % 256) ∧
    (byteAt frame 2).map BitVec.toNat = some (input.length / 256) ∧
    (byteAt frame (3 + input.length)).map BitVec.toNat =
      some ((csum16 (frame.take (3 + input.length))).toNat % 256) ∧
    (byteAt frame (4 + input.length)).map BitVec.toNat =
      some ((csum16 (frame.take (3 + input.length))).toNat / 256)

/-- Items (7) and (8) of 41_framecodec.md R61, derived by the spec: every frame ENCODE makes has the size its length field asks for and
passes VALIDATE, and different inputs that are accepted give different frames. -/
def Obligations.EncodedFramesAreValidAndDistinct : Prop :=
  (∀ (cmdIn : Byte) (input frame : List Byte) (s t u : State), exec (.encode cmdIn input) s = .next t →
    t.outputs.out = some frame → exec (.validate frame) t = .next u →
    frame.length = 5 + (fromLe16 (frame.getD 1 0#8) (frame.getD 2 0#8)).toNat ∧
    u.outputs.validOut = some true) ∧
  (∀ (cmdIn cmdIn' : Byte) (input input' frame : List Byte) (s s' t t' : State),
    exec (.encode cmdIn input) s = .next t → exec (.encode cmdIn' input') s' = .next t' →
    t.outputs.out = some frame → t'.outputs.out = some frame → cmdIn = cmdIn' ∧ input = input')

/-- DECODE (41_framecodec.md R62), every arm, with `L = from_le16(IN[1], IN[2])`: fewer than five bytes or fewer than `5 + L`:
`TRUNCATED`; more than `5 + L`: `MALFORMED`; exactly `5 + L` and another checksum: `CHECKSUM_MISMATCH`; otherwise `OK` with the
four fields. A condition comes with no other output. Arm (c), `MALFORMED`, is the spec's own decision D8 (log entry 12). -/
def Obligations.DecodeTakesTheBufferApart : Prop :=
  (∀ (buffer : List Byte) (s : State), buffer.length < 5 →
    exec (.decode buffer) s = .next { request := s.request, outputs := { status := some .truncated } }) ∧
  (∀ (command l0 l1 : Byte) (rest : List Byte) (s : State),
    (3 + rest.length < 5 + (l0.toNat + 256 * l1.toNat) →
      exec (.decode (command :: l0 :: l1 :: rest)) s =
        .next { request := s.request, outputs := { status := some .truncated } }) ∧
    (5 + (l0.toNat + 256 * l1.toNat) < 3 + rest.length →
      exec (.decode (command :: l0 :: l1 :: rest)) s =
        .next { request := s.request, outputs := { status := some .malformed } })) ∧
  (∀ (command l0 l1 c0 c1 : Byte) (payload : List Byte) (s : State),
    payload.length = l0.toNat + 256 * l1.toNat →
    (byteSum (command :: l0 :: l1 :: payload) % 65536 ≠ c0.toNat + 256 * c1.toNat →
      exec (.decode (command :: l0 :: l1 :: (payload ++ [c0, c1]))) s =
        .next { request := s.request, outputs := { status := some .checksumMismatch } }) ∧
    (byteSum (command :: l0 :: l1 :: payload) % 65536 = c0.toNat + 256 * c1.toNat →
      exec (.decode (command :: l0 :: l1 :: (payload ++ [c0, c1]))) s = .next
        { request := s.request
          outputs :=
            { status := some .ok, cmdOut := some command, lenOut := some (fromLe16 l0 l1), out := some payload,
              csumOut := some (fromLe16 c0 c1) } }))

/-- `TRUNCATED` exactly when `n_in < 5`, or `n_in ≥ 5` and `n_in < 5 + L` (60_exceptions.md R97), with no other output, so not the number of
missing bytes. -/
def Obligations.TruncatedExactlyWhenTooShort : Prop :=
  ∀ (buffer : List Byte) (s t : State), exec (.decode buffer) s = .next t →
    (t.outputs = { status := some .truncated } ↔
      buffer.length < 5 ∨
      (5 ≤ buffer.length ∧ buffer.length < 5 + (fromLe16 (buffer.getD 1 0#8) (buffer.getD 2 0#8)).toNat)) ∧
    (t.outputs.status = some .truncated → t.outputs = { status := some .truncated })

/-- `CHECKSUM_MISMATCH` exactly when `n_in = 5 + L` and the checksum of `IN[0 .. 3+L)` is not the received one (60_exceptions.md R98), with
neither value, command nor payload delivered. -/
def Obligations.MismatchExactlyWhenSizedAndDifferent : Prop :=
  ∀ (buffer : List Byte) (s t : State), exec (.decode buffer) s = .next t →
    (t.outputs = { status := some .checksumMismatch } ↔
      buffer.length = 5 + (fromLe16 (buffer.getD 1 0#8) (buffer.getD 2 0#8)).toNat ∧
      csum16 (buffer.take (buffer.length - 2)) ≠
        fromLe16 (buffer.getD (buffer.length - 2) 0#8) (buffer.getD (buffer.length - 1) 0#8)) ∧
    (t.outputs.status = some .checksumMismatch → t.outputs = { status := some .checksumMismatch })

/-- A frame is `5 + L` bytes long, from 5 to 65540, and every `L` from 0 to 65535 is legal (30_encoding.md R36). -/
def Obligations.FramesAreFivePlusLengthBytes : Prop :=
  (∀ (buffer : List Byte) (s t : State) (length : Half), exec (.decode buffer) s = .next t →
    t.outputs.lenOut = some length →
    buffer.length = 5 + length.toNat ∧ 5 ≤ buffer.length ∧ buffer.length ≤ 65540) ∧
  (∀ (length : Half) (s : State), ∃ (buffer : List Byte) (t : State), buffer.length = 5 + length.toNat ∧
    exec (.decode buffer) s = .next t ∧ t.outputs.status = some .ok ∧ t.outputs.lenOut = some length)

/-- A condition of DECODE delivers nothing but the status, "never partially trusted" (41_framecodec.md R64, 60_exceptions.md R105; spec
decisions D11 and D20). -/
def Obligations.DecodeConditionsDeliverNothing : Prop :=
  ∀ (buffer : List Byte) (s t : State), exec (.decode buffer) s = .next t → t.outputs.status ≠ some .ok →
    ∃ st, st ∈ [Status.truncated, .malformed, .checksumMismatch] ∧ OnlyReports st t.outputs

/-- Round trip, encode then decode (41_framecodec.md R66): for every command and every payload of at most 65535 bytes. -/
def Obligations.DecodeUndoesEncode : Prop :=
  ∀ (cmd : Byte) (payload : List Byte) (s s' : State), payload.length ≤ 65535 →
    ∃ (frame : List Byte) (length : Half),
      length.toNat = payload.length ∧
      exec (.encode cmd payload) s =
        .next { request := s.request, outputs := { status := some .ok, out := some frame } } ∧
      exec (.decode frame) s' = .next
        { request := s'.request
          outputs :=
            { status := some .ok, cmdOut := some cmd, lenOut := some length, out := some payload,
              csumOut := some (csum16 (cmd :: (le16 length ++ payload))) } }

/-- Round trip, decode then encode (41_framecodec.md R67, derived by the spec): what DECODE accepts is what ENCODE makes. -/
def Obligations.EncodeUndoesDecode : Prop :=
  ∀ (buffer payload : List Byte) (cmd : Byte) (s t u : State), exec (.decode buffer) s = .next t →
    t.outputs.status = some .ok → t.outputs.cmdOut = some cmd → t.outputs.out = some payload →
    exec (.encode cmd payload) u =
      .next { request := u.request, outputs := { status := some .ok, out := some buffer } }

/-- Single-bit sensitivity (41_framecodec.md R68, the corrected law of 90_conflicts.md C1): a frame with exactly one bit flipped is never
accepted. Command byte, payload, checksum field: `CHECKSUM_MISMATCH`. Length field: `TRUNCATED` when a 0 bit is set,
`MALFORMED` when a 1 bit is cleared. -/
def Obligations.OneFlippedBitIsNeverAccepted : Prop :=
  ∀ (cmd : Byte) (payload frame : List Byte) (a k : Nat) (s t u : State), exec (.encode cmd payload) s = .next t →
    t.outputs.out = some frame → a < frame.length → k < 8 → exec (.decode (flipBit frame a k)) t = .next u →
    u.outputs.status ≠ some .ok ∧
    (a = 0 ∨ 3 ≤ a → u.outputs.status = some .checksumMismatch) ∧
    ((a = 1 ∨ a = 2) → (frame.getD a 0#8).getLsbD k = false → u.outputs.status = some .truncated) ∧
    ((a = 1 ∨ a = 2) → (frame.getD a 0#8).getLsbD k = true → u.outputs.status = some .malformed)

/-- Truncation is not corruption (41_framecodec.md R69): every proper prefix of every frame is `TRUNCATED`, and so is every buffer with
`n_in < 5 + L`, frame prefix or not. -/
def Obligations.PrefixesAreTruncated : Prop :=
  (∀ (cmd : Byte) (payload frame : List Byte) (k : Nat) (s t u : State), exec (.encode cmd payload) s = .next t →
    t.outputs.out = some frame → k < frame.length → exec (.decode (frame.take k)) t = .next u →
    u.outputs = { status := some .truncated }) ∧
  (∀ (command l0 l1 : Byte) (rest : List Byte) (s : State),
    3 + rest.length < 5 + (fromLe16 l0 l1).toNat →
    exec (.decode (command :: l0 :: l1 :: rest)) s =
      .next { request := s.request, outputs := { status := some .truncated } })

/-- Excess is `MALFORMED` (41_framecodec.md R70, derived by the spec from arm (c) of R62, its own decision D8; log entry 12): a frame
followed by anything, such as a second frame. -/
def Obligations.FramesWithExcessAreMalformed : Prop :=
  ∀ (cmd : Byte) (payload frame excess : List Byte) (s t u : State), exec (.encode cmd payload) s = .next t →
    t.outputs.out = some frame → excess ≠ [] → exec (.decode (frame ++ excess)) t = .next u →
    u.outputs = { status := some .malformed }

/-- A wrong length field is never accepted, whatever the checksum (41_framecodec.md R71, derived by the spec). -/
def Obligations.WrongLengthIsNeverAccepted : Prop :=
  ∀ (command l0 l1 c0 c1 : Byte) (payload : List Byte) (s t : State),
    payload.length ≠ (fromLe16 l0 l1).toNat →
    exec (.decode (command :: l0 :: l1 :: (payload ++ [c0, c1]))) s = .next t → t.outputs.status ≠ some .ok

/-- One changed byte is detected (70_reset_and_hazards.md R124, derived by the spec): a frame with one covered byte outside the length
field, or one byte of the checksum field, replaced by another value is `CHECKSUM_MISMATCH`. -/
def Obligations.OneChangedByteIsDetected : Prop :=
  ∀ (cmd b : Byte) (payload frame : List Byte) (a : Nat) (s t u : State), exec (.encode cmd payload) s = .next t →
    t.outputs.out = some frame → a < frame.length → a ≠ 1 → a ≠ 2 → b ≠ frame.getD a 0#8 →
    exec (.decode (frame.set a b)) t = .next u → u.outputs = { status := some .checksumMismatch }

/-- What the checksum cannot see (40_checksum.md R56, derived by the spec): a frame whose covered bytes outside the length field are
reordered, whether the command byte changes or not, is accepted as the frame of the new command and payload. -/
def Obligations.ReorderedFramesAreAccepted : Prop :=
  ∀ (cmd cmd' : Byte) (payload payload' : List Byte) (length checksum : Half) (s : State),
    (cmd :: payload).Perm (cmd' :: payload') → payload.length = length.toNat →
    checksum = csum16 (header cmd length ++ payload) →
    exec (.decode (frameBytes cmd' length payload' checksum)) s = .next
      { request := s.request
        outputs :=
          { status := some .ok, cmdOut := some cmd', lenOut := some length, out := some payload',
            csumOut := some checksum } }

/-! ## The command family -/

/-- CLASSIFY (42_commands.md R75; codes and the table as a parameter are the spec's decisions D4 and D19): the 13 values give `known_out = 1`
and their row number, every other value `known_out = 0` and 15; `status` is `OK`; no other output. -/
def Obligations.ClassifyNamesTheCommandByte : Prop :=
  ∀ (cmdIn : Byte) (s : State), ∃ t : State,
    exec (.classify cmdIn) s = .next t ∧ t.request = s.request ∧
    t.outputs = { status := some .ok, kind := some (classifyByte cmdIn) } ∧
    (knownOut t.outputs, kindOut t.outputs) =
      (if cmdIn = 0x51#8 then (some 1#1, some 0#4) else if cmdIn = 0x52#8 then (some 1#1, some 1#4)
       else if cmdIn = 0x41#8 then (some 1#1, some 2#4) else if cmdIn = 0x42#8 then (some 1#1, some 3#4)
       else if cmdIn = 0x43#8 then (some 1#1, some 4#4) else if cmdIn = 0x44#8 then (some 1#1, some 5#4)
       else if cmdIn = 0x45#8 then (some 1#1, some 6#4) else if cmdIn = 0x46#8 then (some 1#1, some 7#4)
       else if cmdIn = 0x47#8 then (some 1#1, some 8#4) else if cmdIn = 0x61#8 then (some 1#1, some 9#4)
       else if cmdIn = 0x62#8 then (some 1#1, some 10#4) else if cmdIn = 0x63#8 then (some 1#1, some 11#4)
       else if cmdIn = 0x64#8 then (some 1#1, some 12#4) else (some 0#1, some 15#4))

/-- CLASSIFY with the command table as a parameter (92_eei_decisions.md D19): in the machine of any table in which no value stands twice, a
value of a row names the row's command, with `known_out = 1` and that command's `kind_out`, and every other value names
`UnknownCommand`, with `known_out = 0` and `kind_out = 15`; `status` is `OK`; no other output. -/
def Obligations.ClassificationByAnyTable : Prop :=
  ∀ (table : CommandTable), (table.map Prod.fst).Nodup →
    (∀ value command, (value, command) ∈ table → classifyBy table value = command) ∧
    (∀ value, value ∉ table.map Prod.fst → classifyBy table value = .unknownCommand) ∧
    (∀ (value : Byte) (input : List Byte) (s : State), ∃ t : State,
      stepWith table (present (.transaction 4#3 value input) s) = .next t ∧ t.request = .transaction 4#3 value input ∧
      t.outputs = { status := some .ok, kind := t.outputs.kind } ∧
      (∀ command, (value, command) ∈ table → command ≠ .unknownCommand →
        knownOut t.outputs = some 1#1 ∧ kindOut t.outputs = some (kindCode command)) ∧
      (value ∉ table.map Prod.fst → knownOut t.outputs = some 0#1 ∧ kindOut t.outputs = some 15#4))

/-- Of the 256 values of a command byte exactly 13 are known and 243 are not (30_encoding.md R41, spec decision D10; the values are the
source's unaudited table, 93_implementation_defined.md U1). -/
def Obligations.ThirteenCommandsAreKnown : Prop :=
  ((List.range 256).countP fun n => classifyByte (BitVec.ofNat 8 n) ≠ .unknownCommand) = 13 ∧
  ((List.range 256).countP fun n => classifyByte (BitVec.ofNat 8 n) = .unknownCommand) = 243

/-- The file-name frames (42_commands.md R76, R77: "Operation: carried unchanged. CLASSIFY gives kind 0."): the payload comes out as it went
in, whatever it is, and the command is named. One step does both (log entry 2). -/
def Obligations.FileNameFramesAreCarried : Prop :=
  CarriedAs .requestFileName 0x51#8 .requestFileName ∧
  CarriedAs .replyFileName 0x52#8 .replyFileName

/-- The probe and negotiation frames (42_commands.md R78 to R84), as the file-name frames. -/
def Obligations.NegotiationFramesAreCarried : Prop :=
  CarriedAs .probeRequest 0x41#8 .probeRequest ∧
  CarriedAs .probeResponse 0x42#8 .probeResponse ∧
  CarriedAs .capabilityNego 0x43#8 .capabilityNego ∧
  CarriedAs .capabilityAck 0x44#8 .capabilityAck ∧
  CarriedAs .switchBaudrate 0x45#8 .switchBaudrate ∧
  CarriedAs .switchAck 0x46#8 .switchAck ∧
  CarriedAs .connectionReady 0x47#8 .connectionReady

/-- The basic-transfer frames (42_commands.md R85 to R88), as the file-name frames. -/
def Obligations.TransferFramesAreCarried : Prop :=
  CarriedAs .requestFileSize 0x61#8 .requestFileSize ∧
  CarriedAs .replyFileSize 0x62#8 .replyFileSize ∧
  CarriedAs .requestData 0x63#8 .requestData ∧
  CarriedAs .sendData 0x64#8 .sendData

/-- A damaged frame of any of the 13 commands is reported and nothing of it is delivered or named. That one step receives a frame, and what
an instruction means whose payload is shorter or longer than its length field and which therefore has no encoding (DECODE's answer to
the bytes its fields would make), is the model's choice (log entry 2, DESIGN CHOICE); that the longer one is `MALFORMED` is the
spec's own decision D8 (log entry 12). -/
def Obligations.DamagedCommandFramesAreReported : Prop :=
  DamageReported .requestFileName 0x51#8 ∧ DamageReported .replyFileName 0x52#8 ∧
  DamageReported .probeRequest 0x41#8 ∧ DamageReported .probeResponse 0x42#8 ∧
  DamageReported .capabilityNego 0x43#8 ∧ DamageReported .capabilityAck 0x44#8 ∧
  DamageReported .switchBaudrate 0x45#8 ∧ DamageReported .switchAck 0x46#8 ∧
  DamageReported .connectionReady 0x47#8 ∧ DamageReported .requestFileSize 0x61#8 ∧
  DamageReported .replyFileSize 0x62#8 ∧ DamageReported .requestData 0x63#8 ∧ DamageReported .sendData 0x64#8

/-! ## Codes, reads, payloads -/

/-- The codes of 30_encoding.md R45 and R46 (the spec's decisions D3 and D4): the `status` port shows 0 for `OK`, 1 for `TRUNCATED`, 2 for
`CHECKSUM_MISMATCH`, 3 for `MALFORMED`, 4 for `PAYLOAD_TOO_LARGE`, 5 for `ILLEGAL_OP`, whatever the other ports carry; no two
statuses share a code and 6 and 7 are none; no two commands share a kind, 13 and 14 are none, and `known_out` is 0 for
`UnknownCommand` alone. -/
def Obligations.ResultCodesAreDistinct : Prop :=
  (∀ o : Outputs,
    statusPort { o with status := some .ok } = some 0#3 ∧
    statusPort { o with status := some .truncated } = some 1#3 ∧
    statusPort { o with status := some .checksumMismatch } = some 2#3 ∧
    statusPort { o with status := some .malformed } = some 3#3 ∧
    statusPort { o with status := some .payloadTooLarge } = some 4#3 ∧
    statusPort { o with status := some .illegalOp } = some 5#3) ∧
  (∀ a b : Status, a.code = b.code → a = b) ∧ (∀ a : Status, a.code ≠ 6#3 ∧ a.code ≠ 7#3) ∧
  (∀ a b : Command, kindCode a = kindCode b → a = b) ∧ (∀ a : Command, kindCode a ≠ 13#4 ∧ kindCode a ≠ 14#4) ∧
  (∀ a : Command, knownBit a = 0#1 ↔ a = .unknownCommand)

/-- `MemRead(a, n)` is defined exactly when `a + n ≤ n_in`, and then gives the bytes at offsets `a` to `a + n - 1` (20_memory.md R21, derived
by the spec). -/
def Obligations.ReadsAreDefinedInsideTheBuffer : Prop :=
  ∀ (buffer : List Byte) (a n : Nat),
    ((memRead buffer a n).isSome = true ↔ a + n ≤ buffer.length) ∧
    (∀ bytes, memRead buffer a n = some bytes →
      bytes.length = n ∧ ∀ i, i < n → bytes[i]? = buffer[a + i]?)

/-- The packed payload sizes of 42_commands.md R89 (derived by the spec; log entry 10), whatever `PAYLOAD_FIELD_ORDER` is, for every command
whose size the table fixes. REPLY_FILE_NAME and SEND_DATA have no builder: their bytes are the caller's. -/
def Obligations.PayloadsHaveTheirTableSizes : Prop :=
  requestFileNamePayload.length = 0 ∧
  (∀ (d r : BitVec 32) (v : Byte), (probeRequestPayload d v r).length = 9) ∧
  (∀ (d r : BitVec 32) (v : Byte) (bs : List (BitVec 32)), (probeResponsePayload d v r bs).length = 9 + 4 * bs.length) ∧
  (∀ (s f b : BitVec 32) (m : Byte) (z : BitVec 64) (c : Half) (path : List Byte),
    (capabilityNegoPayload s m f z b c path).length = 23 + path.length) ∧
  (∀ (s : BitVec 32) (st : Byte), (capabilityAckPayload s st).length = 5) ∧
  (∀ (s b : BitVec 32) (d : Half), (switchBaudratePayload s b d).length = 10) ∧
  (∀ s : BitVec 32, (switchAckPayload s).length = 4 ∧ (connectionReadyPayload s).length = 4) ∧
  (∀ o : ByteOrder, (requestFileSizePayload o).length = 2) ∧
  (∀ z : BitVec 32, (replyFileSizePayload z).length = 4) ∧
  (∀ (o : BitVec 32) (l : Half), (requestDataPayload o l).length = 6)

/-- The payload bytes of REPLY_FILE_SIZE and REQUEST_DATA (42_commands.md R86, R87), least significant byte first. -/
def Obligations.SizesAndOffsetsAreLittleEndian : Prop :=
  (∀ z : BitVec 32, (replyFileSizePayload z).map BitVec.toNat =
    [z.toNat % 256, z.toNat / 256 % 256, z.toNat / 65536 % 256, z.toNat / 16777216]) ∧
  (∀ (o : BitVec 32) (l : Half), (requestDataPayload o l).map BitVec.toNat =
    [o.toNat % 256, o.toNat / 256 % 256, o.toNat / 65536 % 256, o.toNat / 16777216, l.toNat % 256, l.toNat / 256])

/-- The marker of REQUEST_FILE_SIZE in both byte orders, which the source does not choose between (42_commands.md R85): `55 AA` and `AA 55`
give frames with the same checksum, `0x0162`. -/
def Obligations.MarkerOrderDoesNotShowInTheChecksum : Prop :=
  requestFileSizePayload .big = [0x55#8, 0xAA#8] ∧ requestFileSizePayload .little = [0xAA#8, 0x55#8] ∧
  ∀ o : ByteOrder, csum16 (header 0x61#8 2#16 ++ requestFileSizePayload o) = 0x0162#16

/-! ## The output ports by operation -/

/-- The "defined when" table of 10_state.md R16 (spec decisions D1 and D11), port by port, for the operation that ran and the status it ended
with; for a reserved `op` it leaves the status alone. After ENCODE with `OK`, `OUT` is the frame of `cmd_in` and the payload and
`n_out = 5 + n_in`; after DECODE with `OK`, the four ports are a Frame record with `length = |payload|` and the right checksum (R17), the
record of the very bytes presented, and `n_out = L`. The receipt of a frame leaves the ports of DECODE and, with `OK`, `known_out` and
`kind_out` as well: that is no pair of R16 but the model's choice (log entry 2, DESIGN CHOICE). -/
def Obligations.OutputPortsFollowTheOperation : Prop :=
  (∀ (op : BitVec 3) (cmdIn : Byte) (input : List Byte) (s t : State),
    step (present (.transaction op cmdIn input) s) = .next t →
    PortsDefined op t.outputs ∧
    (op = 2#3 → t.outputs.status = some .ok →
      t.outputs.out = some (wireFrame cmdIn input) ∧ nOut t.outputs = some (5 + input.length)) ∧
    (op = 3#3 → t.outputs.status = some .ok →
      ∃ f : Frame, FrameValid f ∧ input = frameBytes f.command f.length f.payload f.checksum ∧
        t.outputs = { frameOutputs f with status := some .ok } ∧ nOut t.outputs = some f.length.toNat)) ∧
  (∀ (bytes : List Byte) (s t : State), step (present (.frame bytes) s) = .next t →
    PortsDefined 3#3 { t.outputs with kind := none } ∧
    ((knownOut t.outputs).isSome = true ↔ t.outputs.status = some .ok) ∧
    ((kindOut t.outputs).isSome = true ↔ t.outputs.status = some .ok))

/-! ## The block -/

/-- The block is a total function of the inputs of one transaction, over the unit type as state (10_state.md R10): whatever the command table,
it answers outputs for every input; and every step of the machine, in whatever state, whatever ran before, is that function of the inputs
presented, at the default table, with its answer put on the output ports. That the ports stand in a state, a step with nothing presented, the receipt of a frame, and the answer to a reserved `op` are
the model's (log entries 1, 2, 5). -/
def Obligations.StepIsTheStatelessBlock : Prop :=
  (∀ (table : CommandTable) (inputs : Request), ∃ o : Outputs, block table () inputs = ((), .next o)) ∧
  (∀ s : State, step s = onPorts (block commandTable () s.request).2 s) ∧
  (∀ s : State, core.step s = (machineWith commandTable).step s) ∧
  (∀ (inputs : Request) (s t : State), step (present inputs s) = .next t →
    (block commandTable () inputs).2 = .next t.outputs ∧ t.request = inputs)

/-- The command table touches classification alone (92_eei_decisions.md D19 "ENCODE, DECODE, VALIDATE and CSUM16 do not depend on it"): in the
machine of any table, a transaction of another operation than CLASSIFY, a reserved `op` (log entry 5) and a step with nothing presented
(log entry 1) answer as in the machine of the default table; the receipt of a frame (log entry 2) answers what DECODE of its bytes
answers, with the command named by that table; and a frame of the right size is no instruction exactly when that table does not know
its command byte. -/
def Obligations.CommandTableTouchesClassificationAlone : Prop :=
  ∀ table : CommandTable,
    (∀ (op : BitVec 3) (cmdIn : Byte) (input : List Byte) (s : State), op ≠ 4#3 →
      stepWith table (present (.transaction op cmdIn input) s) = step (present (.transaction op cmdIn input) s)) ∧
    (∀ s : State, stepWith table (present .idle s) = step (present .idle s)) ∧
    (∀ (bytes : List Byte) (s t : State), exec (.decode bytes) s = .next t →
      stepWith table (present (.frame bytes) s) = .next
        { request := .frame bytes
          outputs := { t.outputs with kind := t.outputs.cmdOut.map (classifyBy table) } }) ∧
    (∀ (command : Byte) (length : Half) (payload : List Byte) (checksum : Half), payload.length = length.toNat →
      (decodeRequestWith table (.frame (frameBytes command length payload checksum)) = .reject .unknownCommand ↔
        classifyBy table command = .unknownCommand))
end

