-- ==== Sys2Proof/Laws/State.lean ====
section
/-! SUPPORT. One lemma per field per update of `State`. -/

namespace Sys2Proof.Machine

@[simp] theorem onPorts_next (o : Outputs) (s : State) : onPorts (.next o) s = .next { s with outputs := o } := rfl
@[simp] theorem onPorts_fault (f : Fault) (s : State) : onPorts (.fault f) s = .fault f := rfl
@[simp] theorem onPorts_refused (r : Refusal) (s : State) : onPorts (.refused r) s = .refused r := rfl
@[simp] theorem onPorts_deliver (o : Outputs) (s : State) :
    onPorts (deliver o) s = .next { s with outputs := { o with status := some .ok } } := rfl
@[simp] theorem onPorts_report (st : Status) (s : State) :
    onPorts (report st) s = .next { s with outputs := { status := some st } } := rfl

/-- All that putting a reply on the ports can do: the reply's outputs in place of the old ones, the inputs as before. -/
theorem onPorts_eq_next {reply : Reply} {s t : State} :
    onPorts reply s = .next t ↔ ∃ o, reply = .next o ∧ t = { s with outputs := o } := by
  cases reply <;> simp [onPorts, eq_comm]

@[simp] theorem present_request (r : Request) (s : State) : (present r s).request = r := rfl
@[simp] theorem present_outputs (r : Request) (s : State) : (present r s).outputs = s.outputs := rfl
@[simp] theorem withFetchWord_request (s : State) (nbits w : Nat) :
    (s.withFetchWord nbits w).request = requestOfTableWord nbits w := rfl
@[simp] theorem withFetchWord_outputs (s : State) (nbits w : Nat) :
    (s.withFetchWord nbits w).outputs = s.outputs := rfl
@[simp] theorem reset_request : State.reset.request = .idle := rfl
@[simp] theorem reset_outputs : State.reset.outputs = {} := rfl
@[simp] theorem frameOutputs_cmdOut (f : Frame) : (frameOutputs f).cmdOut = some f.command := rfl
@[simp] theorem frameOutputs_lenOut (f : Frame) : (frameOutputs f).lenOut = some f.length := rfl
@[simp] theorem frameOutputs_out (f : Frame) : (frameOutputs f).out = some f.payload := rfl
@[simp] theorem frameOutputs_csumOut (f : Frame) : (frameOutputs f).csumOut = some f.checksum := rfl
@[simp] theorem frameOutputs_validOut (f : Frame) : (frameOutputs f).validOut = none := rfl
@[simp] theorem frameOutputs_kind (f : Frame) : (frameOutputs f).kind = none := rfl

end Sys2Proof.Machine
end

