-- ==== Sys2Proof/Laws/Word.lean ====
section
/-! SUPPORT. The byte-order helpers as numbers, and that `le16` and `from_le16` are inverse (00_scope.md R7). -/

namespace Sys2Proof

@[simp] theorem toNat_lo8 (v : Half) : (lo8 v).toNat = v.toNat % 256 := by
  simp [lo8]

@[simp] theorem toNat_hi8 (v : Half) : (hi8 v).toNat = v.toNat / 256 := by
  have := v.isLt
  simp only [hi8, BitVec.toNat_ofNat]
  omega

@[simp] theorem toNat_fromLe16 (b0 b1 : Byte) : (fromLe16 b0 b1).toNat = b0.toNat + 256 * b1.toNat := by
  have := b0.isLt
  have := b1.isLt
  simp only [fromLe16, BitVec.toNat_ofNat]
  omega

@[simp] theorem fromLe16_lo8_hi8 (v : Half) : fromLe16 (lo8 v) (hi8 v) = v := by
  apply BitVec.eq_of_toNat_eq
  simp only [toNat_fromLe16, toNat_lo8, toNat_hi8]
  omega

@[simp] theorem lo8_fromLe16 (b0 b1 : Byte) : lo8 (fromLe16 b0 b1) = b0 := by
  have := b0.isLt
  apply BitVec.eq_of_toNat_eq
  simp only [toNat_fromLe16, toNat_lo8]
  omega

@[simp] theorem hi8_fromLe16 (b0 b1 : Byte) : hi8 (fromLe16 b0 b1) = b1 := by
  have := b0.isLt
  apply BitVec.eq_of_toNat_eq
  simp only [toNat_fromLe16, toNat_hi8]
  omega

@[simp] theorem length_le16 (v : Half) : (le16 v).length = 2 := rfl

@[simp] theorem length_header (command : Byte) (length : Half) : (header command length).length = 3 := rfl

@[simp] theorem length_frameBytes (command : Byte) (length : Half) (payload : List Byte) (checksum : Half) :
    (frameBytes command length payload checksum).length = 5 + payload.length := by
  simp only [frameBytes, List.length_append, length_header, length_le16]
  omega

/-- The frame written out, byte by byte (30_encoding.md R35). -/
theorem frameBytes_eq (command : Byte) (length : Half) (payload : List Byte) (checksum : Half) :
    frameBytes command length payload checksum =
      command :: lo8 length :: hi8 length :: (payload ++ [lo8 checksum, hi8 checksum]) := rfl

/-- A buffer whose size is the `5 + L` of its length field is the frame of its own fields (30_encoding.md R35). -/
theorem frameBytes_of_fields (command l0 l1 : Byte) (payload : List Byte) (c0 c1 : Byte) :
    command :: l0 :: l1 :: (payload ++ [c0, c1]) =
      frameBytes command (fromLe16 l0 l1) payload (fromLe16 c0 c1) := by
  simp [frameBytes_eq]

/-- A list of two more bytes than `n` is `n` bytes and two more. -/
theorem split_last_two (n : Nat) (bytes : List Byte) (h : bytes.length = n + 2) :
    ∃ front c0 c1, bytes = front ++ [c0, c1] ∧ front.length = n := by
  have h2 : (bytes.drop n).length = 2 := by simp [h]
  obtain ⟨c0, c1, hd⟩ := List.length_eq_two.mp h2
  exact ⟨bytes.take n, c0, c1, by rw [← hd, List.take_append_drop], by simp [h]⟩

end Sys2Proof
end

