-- ==== Sys2Proof/Laws/Ops.lean ====
section
/-! SUPPORT. What each shared operation over the byte sequences can do, said once: reading, writing, the cells, the checksum, the operand
forms. -/

namespace Sys2Proof.Machine

/-- A read inside the buffer gives its bytes (20_memory.md R21). -/
theorem memRead_of_le (buffer : List Byte) (a n : Nat) (h : a + n ≤ buffer.length) :
    memRead buffer a n = some ((buffer.drop a).take n) := by
  simp [memRead, h]

/-- A read outside the buffer has no value (20_memory.md R21). -/
theorem memRead_of_lt (buffer : List Byte) (a n : Nat) (h : buffer.length < a + n) :
    memRead buffer a n = none := by
  simp [memRead, h]

/-- A write at the next offset appends (20_memory.md R21). -/
@[simp] theorem memWrite_next (out v : List Byte) : memWrite out out.length v = some (out ++ v) := by
  simp [memWrite]

/-- The addresses of cells start at the given address and rise. -/
theorem cellsFrom_le (a : Nat) (buffer : List Byte) : ∀ c ∈ cellsFrom a buffer, a ≤ c.1 := by
  induction buffer generalizing a with
  | nil => simp [cellsFrom]
  | cons b rest ih =>
    intro c hc
    rcases List.mem_cons.mp hc with rfl | hc
    · exact Nat.le_refl a
    · exact Nat.le_of_succ_le (ih (a + 1) c hc)

theorem cellsFrom_wf (a : Nat) (buffer : List Byte) : Memory.wf (cellsFrom a buffer) := by
  induction buffer generalizing a with
  | nil => simp [cellsFrom, Memory.wf]
  | cons b rest ih =>
    refine List.pairwise_cons.mpr ⟨?_, ih (a + 1)⟩
    intro x hx
    obtain ⟨c, hc, rfl⟩ := List.mem_map.mp hx
    exact cellsFrom_le (a + 1) rest c hc

/-- Every byte sequence, so whatever a memory operation answers, is canonical memory. -/
theorem cells_wf (buffer : List Byte) : Memory.wf (cells buffer) := cellsFrom_wf 0 buffer

/-- What a write answers is canonical memory. -/
theorem memWrite_wf (out : List Byte) (a : Nat) (v out' : List Byte) (_ : memWrite out a v = some out') :
    Memory.wf (cells out') := cells_wf out'

/-- The input memory of the reset state is canonical. -/
theorem reset_memory_wf : Memory.wf (cells (inputBytes State.reset.request)) := cells_wf _

/-- Reading one byte. -/
theorem byteAt_eq_getElem? (buffer : List Byte) (a : Nat) : byteAt buffer a = buffer[a]? := by
  unfold byteAt
  by_cases h : a < buffer.length
  · rw [memRead_of_le buffer a 1 h, List.drop_eq_getElem_cons h, List.take_succ_cons, List.take_zero]
    simp [h]
  · rw [memRead_of_lt _ _ _ (by omega)]
    simp [h]

/-- Reading a 16-bit field that stands between two parts of a buffer (20_memory.md R22). -/
theorem le16At_append (front : List Byte) (b0 b1 : Byte) (back : List Byte) (a : Nat) (h : a = front.length) :
    le16At (front ++ b0 :: b1 :: back) a = some (fromLe16 b0 b1) := by
  subst h
  simp [le16At, memRead]

/-- The length field of a buffer that shows one (30_encoding.md R37). -/
@[simp] theorem lengthField_cons (command l0 l1 : Byte) (rest : List Byte) :
    lengthField (command :: l0 :: l1 :: rest) = some (fromLe16 l0 l1) :=
  le16At_append [command] l0 l1 rest 1 rfl

@[simp] theorem lengthField_frameBytes (command : Byte) (length : Half) (payload : List Byte) (checksum : Half) :
    lengthField (frameBytes command length payload checksum) = some length := by
  simp [frameBytes_eq]

/-- The covered bytes of a frame are its header and its payload (40_checksum.md R55). -/
theorem coveredBytes_frameBytes (command : Byte) (length : Half) (payload : List Byte) (checksum : Half)
    (h : payload.length = length.toNat) :
    coveredBytes (frameBytes command length payload checksum) length = some (header command length ++ payload) := by
  rw [coveredBytes, memRead_of_le _ _ _ (by simp [h]), ← h]
  simp [frameBytes, ← List.append_assoc, Nat.add_comm 3]

/-- The payload of a frame (30_encoding.md R35). -/
theorem payloadField_frameBytes (command : Byte) (length : Half) (payload : List Byte) (checksum : Half)
    (h : payload.length = length.toNat) :
    payloadField (frameBytes command length payload checksum) length = some payload := by
  rw [payloadField, memRead_of_le _ _ _ (by simp [h]), ← h]
  simp [frameBytes_eq]

/-- The checksum field of a frame (30_encoding.md R38). -/
theorem checksumField_frameBytes (command : Byte) (length : Half) (payload : List Byte) (checksum : Half)
    (h : payload.length = length.toNat) :
    checksumField (frameBytes command length payload checksum) length = some checksum := by
  have := le16At_append (header command length ++ payload) (lo8 checksum) (hi8 checksum) []
    (3 + length.toNat) (by simp [h])
  simpa [checksumField, frameBytes, le16] using this

/-- The loop of `csum16` from any running sum. -/
theorem csum16_foldl (bytes : List Byte) (s : Half) :
    bytes.foldl (fun s b => s + b.setWidth 16) s = s + csum16 bytes := by
  induction bytes generalizing s with
  | nil => simp [csum16]
  | cons b rest ih =>
    simp only [csum16, List.foldl_cons]
    rw [ih, ih (0#16 + b.setWidth 16)]
    simp [BitVec.add_assoc]

@[simp] theorem csum16_nil : csum16 [] = 0#16 := rfl

@[simp] theorem csum16_cons (b : Byte) (bytes : List Byte) : csum16 (b :: bytes) = b.setWidth 16 + csum16 bytes := by
  simp only [csum16, List.foldl_cons]
  rw [csum16_foldl]
  simp [csum16]

@[simp] theorem csum16_append (front back : List Byte) : csum16 (front ++ back) = csum16 front + csum16 back := by
  induction front with
  | nil => simp
  | cons b rest ih => simp [ih, BitVec.add_assoc]

@[simp] theorem length_wireFrame (command : Byte) (payload : List Byte) :
    (wireFrame command payload).length = 5 + payload.length := length_frameBytes ..

end Sys2Proof.Machine
end

