-- ==== Sys2Proof/Laws/Codec.lean ====
section
/-! SUPPORT. What the procedures of VALIDATE, ENCODE and DECODE answer, said once for each. -/

namespace Sys2Proof.Machine

/-- VALIDATE on fewer than five bytes. -/
theorem validateBuffer_short (buffer : List Byte) (h : buffer.length < 5) : validateBuffer buffer = some false := by
  simp [validateBuffer, h]

/-- VALIDATE on a buffer of five bytes or more, seen as its last two bytes and those before. -/
theorem validateBuffer_append (front : List Byte) (c0 c1 : Byte) (h : 3 ≤ front.length) :
    validateBuffer (front ++ [c0, c1]) = some (validBit (csum16 front) (fromLe16 c0 c1)) := by
  have hl : (front ++ [c0, c1]).length - 2 = front.length := by simp
  have h5 : ¬ (front ++ [c0, c1]).length < 5 := by simp; omega
  rw [validateBuffer, if_neg h5, hl, le16At_append front c0 c1 [] _ rfl, memRead_of_le _ _ _ (by simp)]
  simp

/-- ENCODE of a payload that is too long. -/
theorem encodeFrame_large (command : Byte) (payload : List Byte) (h : 65535 < payload.length) :
    encodeFrame command payload = some (.raised .payloadTooLarge) := by
  simp [encodeFrame, h]

/-- ENCODE of a payload that fits: its four writes make the wire frame. -/
theorem encodeFrame_fits (command : Byte) (payload : List Byte) (h : payload.length ≤ 65535) :
    encodeFrame command payload = some (.ok (wireFrame command payload)) := by
  have h' : ¬ 65535 < payload.length := by omega
  have ha : 3 + payload.length = 1 + (1 + (1 + payload.length)) := by omega
  simp [encodeFrame, h', ha, memWrite, le16, wireFrame, frameBytes, header, Nat.add_comm 1]

/-- DECODE on fewer than five bytes. -/
theorem decodeBuffer_short (buffer : List Byte) (h : buffer.length < 5) :
    decodeBuffer buffer = some (.raised .truncated) := by
  simp [decodeBuffer, h]

/-- DECODE on fewer bytes than `5 + L`. -/
theorem decodeBuffer_truncated (command l0 l1 : Byte) (rest : List Byte)
    (h : rest.length < (fromLe16 l0 l1).toNat + 2) :
    decodeBuffer (command :: l0 :: l1 :: rest) = some (.raised .truncated) := by
  rw [decodeBuffer, lengthField_cons]
  split
  · rfl
  · rw [Option.bind_some, if_pos]
    simp only [frameSize, List.length_cons]
    omega

/-- DECODE on more bytes than `5 + L`. -/
theorem decodeBuffer_malformed (command l0 l1 : Byte) (rest : List Byte)
    (h : (fromLe16 l0 l1).toNat + 2 < rest.length) :
    decodeBuffer (command :: l0 :: l1 :: rest) = some (.raised .malformed) := by
  rw [decodeBuffer, lengthField_cons, if_neg (by simp only [List.length_cons]; omega), Option.bind_some,
    if_neg (by simp only [frameSize, List.length_cons]; omega),
    if_pos (by simp only [frameSize, List.length_cons]; omega)]

/-- DECODE on a buffer of exactly `5 + L` bytes: the checksum decides. -/
theorem decodeBuffer_frameBytes (command : Byte) (length : Half) (payload : List Byte) (checksum : Half)
    (h : payload.length = length.toNat) :
    decodeBuffer (frameBytes command length payload checksum) =
      some (if csum16 (header command length ++ payload) = checksum
        then .ok { command, length, payload, checksum } else .raised .checksumMismatch) := by
  have hn : (frameBytes command length payload checksum).length = frameSize length := by
    rw [length_frameBytes, frameSize, h]
  have hc : byteAt (frameBytes command length payload checksum) 0 = some command := by
    rw [byteAt_eq_getElem?]; rfl
  rw [decodeBuffer, if_neg (by rw [hn, frameSize]; omega), lengthField_frameBytes, Option.bind_some,
    if_neg (by omega), if_neg (by omega), coveredBytes_frameBytes _ _ _ _ h, Option.bind_some,
    checksumField_frameBytes _ _ _ _ h, Option.bind_some, hc, Option.bind_some,
    payloadField_frameBytes _ _ _ _ h, Option.bind_some]
  split <;> simp_all

/-- The five kinds of buffer of 41_framecodec.md R63, which leave nothing out. -/
theorem buffer_cases (buffer : List Byte) :
    buffer.length < 5 ∨
    (∃ command l0 l1 rest, buffer = command :: l0 :: l1 :: rest ∧ rest.length < (fromLe16 l0 l1).toNat + 2) ∨
    (∃ command l0 l1 rest, buffer = command :: l0 :: l1 :: rest ∧ (fromLe16 l0 l1).toNat + 2 < rest.length) ∨
    (∃ command length payload checksum, buffer = frameBytes command length payload checksum ∧
      payload.length = length.toNat) := by
  match buffer with
  | [] => exact .inl (by simp)
  | [_] => exact .inl (by simp)
  | [_, _] => exact .inl (by simp)
  | command :: l0 :: l1 :: rest =>
    rcases Nat.lt_trichotomy rest.length ((fromLe16 l0 l1).toNat + 2) with h | h | h
    · exact .inr (.inl ⟨command, l0, l1, rest, rfl, h⟩)
    · obtain ⟨payload, c0, c1, rfl, hp⟩ := split_last_two _ _ h
      exact .inr (.inr (.inr ⟨command, fromLe16 l0 l1, payload, fromLe16 c0 c1,
        frameBytes_of_fields command l0 l1 payload c0 c1, hp⟩))
    · exact .inr (.inr (.inl ⟨command, l0, l1, rest, rfl, h⟩))

/-- All that DECODE's procedure can answer: a condition, or a valid Frame record whose bytes are the buffer. It never reads outside
the buffer (20_memory.md R21). -/
theorem decodeBuffer_cases (buffer : List Byte) :
    (∃ st, decodeBuffer buffer = some (.raised st) ∧ st ≠ .ok) ∨
    (∃ f, decodeBuffer buffer = some (.ok f) ∧ Safety.FrameValid f ∧
      buffer = frameBytes f.command f.length f.payload f.checksum) := by
  rcases buffer_cases buffer with h | ⟨c, l0, l1, rest, rfl, h⟩ | ⟨c, l0, l1, rest, rfl, h⟩ | ⟨c, l, p, k, rfl, h⟩
  · exact .inl ⟨_, decodeBuffer_short _ h, by decide⟩
  · exact .inl ⟨_, decodeBuffer_truncated _ _ _ _ h, by decide⟩
  · exact .inl ⟨_, decodeBuffer_malformed _ _ _ _ h, by decide⟩
  · rw [decodeBuffer_frameBytes _ _ _ _ h]
    split
    · next hk => exact .inr ⟨_, rfl, ⟨h.symm, hk.symm⟩, rfl⟩
    · exact .inl ⟨_, rfl, by decide⟩

/-- A condition alone is what 10_state.md R16 defines for every `op` but those whose answer is on a port "always". -/
theorem portsDefined_condition (op : BitVec 3) (st : Status) (h : st ≠ .ok) (h0 : op ≠ 0#3) (h1 : op ≠ 1#3) (h4 : op ≠ 4#3) :
    Safety.PortsDefined op { status := some st } := by
  constructor <;> simp_all [knownOut, kindOut, nOut]

end Sys2Proof.Machine
end

