-- ==== Sys2Proof/Laws/PerInstr.lean ====
section
/-! SUPPORT. The per-instruction family `RowMatch`: the encoder puts the word of the instruction's own row of spec/opcode_table.json where that
row's format looks for it. -/

namespace Sys2Proof.Laws.RowMatch

/-- The word that the encoding of `i` shows is its row's value under its row's mask, in its row's format. -/
def Statement (i : Instr) : Prop :=
  ∃ w, selectWord (encode i) = some ((opcodeRow i).format, w) ∧ w &&& (opcodeRow i).mask = (opcodeRow i).value

theorem csum16 (input : List Byte) : Statement (.csum16 input) := ⟨_, rfl, by simp [opcodeRow]⟩
theorem validate (input : List Byte) : Statement (.validate input) := ⟨_, rfl, by simp [opcodeRow]⟩
theorem encode (cmdIn : Byte) (input : List Byte) : Statement (.encode cmdIn input) := ⟨_, rfl, by simp [opcodeRow]⟩
theorem decode (input : List Byte) : Statement (.decode input) := ⟨_, rfl, by simp [opcodeRow]⟩
theorem classify (cmdIn : Byte) : Statement (.classify cmdIn) := ⟨_, rfl, by simp [opcodeRow]⟩
theorem requestFileName (length : Half) (payload : List Byte) (checksum : Half) :
    Statement (.requestFileName length payload checksum) := ⟨_, rfl, by simp [opcodeRow]⟩
theorem replyFileName (length : Half) (payload : List Byte) (checksum : Half) :
    Statement (.replyFileName length payload checksum) := ⟨_, rfl, by simp [opcodeRow]⟩
theorem probeRequest (length : Half) (payload : List Byte) (checksum : Half) :
    Statement (.probeRequest length payload checksum) := ⟨_, rfl, by simp [opcodeRow]⟩
theorem probeResponse (length : Half) (payload : List Byte) (checksum : Half) :
    Statement (.probeResponse length payload checksum) := ⟨_, rfl, by simp [opcodeRow]⟩
theorem capabilityNego (length : Half) (payload : List Byte) (checksum : Half) :
    Statement (.capabilityNego length payload checksum) := ⟨_, rfl, by simp [opcodeRow]⟩
theorem capabilityAck (length : Half) (payload : List Byte) (checksum : Half) :
    Statement (.capabilityAck length payload checksum) := ⟨_, rfl, by simp [opcodeRow]⟩
theorem switchBaudrate (length : Half) (payload : List Byte) (checksum : Half) :
    Statement (.switchBaudrate length payload checksum) := ⟨_, rfl, by simp [opcodeRow]⟩
theorem switchAck (length : Half) (payload : List Byte) (checksum : Half) :
    Statement (.switchAck length payload checksum) := ⟨_, rfl, by simp [opcodeRow]⟩
theorem connectionReady (length : Half) (payload : List Byte) (checksum : Half) :
    Statement (.connectionReady length payload checksum) := ⟨_, rfl, by simp [opcodeRow]⟩
theorem requestFileSize (length : Half) (payload : List Byte) (checksum : Half) :
    Statement (.requestFileSize length payload checksum) := ⟨_, rfl, by simp [opcodeRow]⟩
theorem replyFileSize (length : Half) (payload : List Byte) (checksum : Half) :
    Statement (.replyFileSize length payload checksum) := ⟨_, rfl, by simp [opcodeRow]⟩
theorem requestData (length : Half) (payload : List Byte) (checksum : Half) :
    Statement (.requestData length payload checksum) := ⟨_, rfl, by simp [opcodeRow]⟩
theorem sendData (length : Half) (payload : List Byte) (checksum : Half) :
    Statement (.sendData length payload checksum) := ⟨_, rfl, by simp [opcodeRow]⟩

end Sys2Proof.Laws.RowMatch
end

