-- ==== Sys2Proof/Tests/Slice0.lean ====
section
/-! SUPPORT. Small tests whose expected results stand in spec/95_test_vectors.md or in a rule's worked example, and the witnesses of the
statements' hypotheses. -/

namespace Sys2Proof.Tests

open Sys2Proof Sys2Proof.Machine Sys2Proof.Safety Sys2Proof.Claims

/-- The outputs after one step from reset with a request presented. -/
def outputsOf (r : Request) : Option Outputs :=
  match step (present r State.reset) with
  | .next t => some t.outputs
  | _ => none

/-- The status code after one step from reset with DECODE of a buffer. -/
def decodeStatus (buffer : List Byte) : Option (BitVec 3) :=
  (outputsOf (.transaction 3#3 0#8 buffer)).bind statusPort

/-- The state after an answer. -/
def nextOf : Answer → Option State
  | .next t => some t
  | _ => none

/-! ## WellFormed: each check refuses an ill-formed term -/

theorem test_wellFormed_short_payload : (Instr.sendData 1#16 [] 0#16).wellFormed = false := by decide
theorem test_wellFormed_long_payload : (Instr.requestFileName 0#16 [0xAA] 0#16).wellFormed = false := by decide
theorem test_wellFormed_every_command_checks :
    [Instr.requestFileName 1#16 [] 0#16, .replyFileName 1#16 [] 0#16, .probeRequest 1#16 [] 0#16, .probeResponse 1#16 [] 0#16,
     .capabilityNego 1#16 [] 0#16, .capabilityAck 1#16 [] 0#16, .switchBaudrate 1#16 [] 0#16, .switchAck 1#16 [] 0#16,
     .connectionReady 1#16 [] 0#16, .requestFileSize 1#16 [] 0#16, .replyFileSize 1#16 [] 0#16, .requestData 1#16 [] 0#16,
     .sendData 1#16 [] 0#16].all (fun i => !i.wellFormed) = true := by decide
theorem test_wellFormed_fitting_payload : (Instr.sendData 2#16 [0x49, 0x4A] 0x00F9#16).wellFormed = true := by decide

/-! ## Decoding: one word written out per constructor -/

-- 30_encoding.md R44 for the operation codes.
theorem test_decode_csum16 : decodeRequest (.transaction 0b000#3 0x63 [0x51]) = .ok (.csum16 [0x51]) := by decide
theorem test_decode_validate : decodeRequest (.transaction 0b001#3 0x63 [0x51]) = .ok (.validate [0x51]) := by decide
theorem test_decode_encode : decodeRequest (.transaction 0b010#3 0x63 [0x51]) = .ok (.encode 0x63 [0x51]) := by decide
theorem test_decode_decode : decodeRequest (.transaction 0b011#3 0x63 [0x51]) = .ok (.decode [0x51]) := by decide
theorem test_decode_classify : decodeRequest (.transaction 0b100#3 0x63 [0x51]) = .ok (.classify 0x63) := by decide
-- 95_test_vectors.md V6.20 to V6.35 for the frames.
theorem test_decode_requestFileName :
    decodeRequest (.frame [0x51, 0x00, 0x00, 0x51, 0x00]) = .ok (.requestFileName 0 [] 0x0051) := by decide
theorem test_decode_replyFileName :
    decodeRequest (.frame [0x52, 0x00, 0x00, 0x52, 0x00]) = .ok (.replyFileName 0 [] 0x0052) := by decide
theorem test_decode_probeRequest :
    decodeRequest (.frame [0x41, 0x09, 0x00, 0x78, 0x56, 0x34, 0x12, 0x02, 0xEF, 0xBE, 0xAD, 0xDE, 0x98, 0x04]) =
      .ok (.probeRequest 9 [0x78, 0x56, 0x34, 0x12, 0x02, 0xEF, 0xBE, 0xAD, 0xDE] 0x0498) := by decide
theorem test_decode_probeResponse :
    decodeRequest (.frame [0x42, 0x09, 0x00, 0x11, 0x22, 0x33, 0x44, 0x02, 0xEF, 0xBE, 0xAD, 0xDE, 0x2F, 0x04]) =
      .ok (.probeResponse 9 [0x11, 0x22, 0x33, 0x44, 0x02, 0xEF, 0xBE, 0xAD, 0xDE] 0x042F) := by decide
theorem test_decode_capabilityNego :
    decodeRequest (.frame [0x43, 0x17, 0x00, 0x01, 0x00, 0x00, 0x00, 0x00, 0x01, 0x00, 0x00, 0x00, 0x0A, 0x00, 0x00, 0x00, 0x00,
      0x00, 0x00, 0x00, 0x00, 0xC2, 0x01, 0x00, 0x00, 0x04, 0x2D, 0x01]) =
      .ok (.capabilityNego 23 [0x01, 0x00, 0x00, 0x00, 0x00, 0x01, 0x00, 0x00, 0x00, 0x0A, 0x00, 0x00, 0x00, 0x00,
        0x00, 0x00, 0x00, 0x00, 0xC2, 0x01, 0x00, 0x00, 0x04] 0x012D) := by decide
theorem test_decode_capabilityAck :
    decodeRequest (.frame [0x44, 0x05, 0x00, 0x01, 0x00, 0x00, 0x00, 0x01, 0x4B, 0x00]) =
      .ok (.capabilityAck 5 [0x01, 0x00, 0x00, 0x00, 0x01] 0x004B) := by decide
theorem test_decode_switchBaudrate :
    decodeRequest (.frame [0x45, 0x0A, 0x00, 0x01, 0x00, 0x00, 0x00, 0x00, 0xC2, 0x01, 0x00, 0x64, 0x00, 0x77, 0x01]) =
      .ok (.switchBaudrate 10 [0x01, 0x00, 0x00, 0x00, 0x00, 0xC2, 0x01, 0x00, 0x64, 0x00] 0x0177) := by decide
theorem test_decode_switchAck :
    decodeRequest (.frame [0x46, 0x04, 0x00, 0x01, 0x00, 0x00, 0x00, 0x4B, 0x00]) =
      .ok (.switchAck 4 [0x01, 0x00, 0x00, 0x00] 0x004B) := by decide
theorem test_decode_connectionReady :
    decodeRequest (.frame [0x47, 0x04, 0x00, 0x01, 0x00, 0x00, 0x00, 0x4C, 0x00]) =
      .ok (.connectionReady 4 [0x01, 0x00, 0x00, 0x00] 0x004C) := by decide
theorem test_decode_requestFileSize :
    decodeRequest (.frame [0x61, 0x02, 0x00, 0x55, 0xAA, 0x62, 0x01]) =
      .ok (.requestFileSize 2 [0x55, 0xAA] 0x0162) := by decide
theorem test_decode_replyFileSize :
    decodeRequest (.frame [0x62, 0x04, 0x00, 0x0A, 0x00, 0x00, 0x00, 0x70, 0x00]) =
      .ok (.replyFileSize 4 [0x0A, 0x00, 0x00, 0x00] 0x0070) := by decide
theorem test_decode_requestData :
    decodeRequest (.frame [0x63, 0x06, 0x00, 0x00, 0x00, 0x00, 0x00, 0x04, 0x00, 0x6D, 0x00]) =
      .ok (.requestData 6 [0x00, 0x00, 0x00, 0x00, 0x04, 0x00] 0x006D) := by decide
theorem test_decode_sendData :
    decodeRequest (.frame [0x64, 0x04, 0x00, 0x41, 0x42, 0x43, 0x44, 0x72, 0x01]) =
      .ok (.sendData 4 [0x41, 0x42, 0x43, 0x44] 0x0172) := by decide

-- 30_encoding.md R44: 5, 6, 7 are reserved. 42_commands.md R75 corner cases: 0xC1 is unknown.
theorem test_decode_reserved : decodeRequest (.transaction 5#3 0x63 []) = .reject .reservedOp := by decide
theorem test_decode_unknown : decodeRequest (.frame [0xC1, 0x00, 0x00, 0xC1, 0x00]) = .reject .unknownCommand := by decide
theorem test_decode_short : decodeRequest (.frame [0x51, 0x00]) = .reject .truncated := by decide
theorem test_decode_long : decodeRequest (.frame [0x51, 0x00, 0x00, 0x51, 0x00, 0x00]) = .reject .malformed := by decide

/-- One instruction of each row. -/
def samples : List Instr :=
  [.csum16 [], .validate [], .encode 0 [], .decode [], .classify 0, .requestFileName 0 [] 0, .replyFileName 0 [] 0,
   .probeRequest 0 [] 0, .probeResponse 0 [] 0, .capabilityNego 0 [] 0, .capabilityAck 0 [] 0, .switchBaudrate 0 [] 0,
   .switchAck 0 [] 0, .connectionReady 0 [] 0, .requestFileSize 0 [] 0, .replyFileSize 0 [] 0, .requestData 0 [] 0,
   .sendData 0 [] 0]

-- spec/opcode_table.json: no word of a format is in two rows.
theorem test_rows_do_not_overlap :
    (samples.map opcodeRow).Pairwise fun a b => a.format = b.format → a.value &&& b.mask ≠ b.value &&& a.mask := by decide

-- spec/opcode_table.json: each row's word decodes to the row.
theorem test_table_words : ∀ i ∈ samples, decodeTableWord 8 (opcodeRow i).value = some i := by decide

-- The frame of a 16-bit word whose second byte is the length's low byte is completed to its size.
theorem test_table_word_16 : decodeTableWord 16 0x0147 = some (.connectionReady 1 [0x00] 0) := by decide

-- The word presented at reset is the first thing that runs: 0x51 and zeros is a frame with a wrong checksum.
theorem test_fetch_command :
    nextOf (step (State.reset.withFetchWord 8 0x51)) =
      some ⟨.frame [0x51, 0, 0, 0, 0], { status := some .checksumMismatch }⟩ := by decide
theorem test_fetch_operation :
    nextOf (step (State.reset.withFetchWord 8 0x00)) =
      some ⟨.transaction 0 0 [], { status := some .ok, csumOut := some 0 }⟩ := by decide

/-! ## The operations -/

-- V1.6: a 16-bit sum of bytes; V1.4: order is invisible.
theorem test_csum16_carries : (outputsOf (.transaction 0 0 [0xFF, 0xFF])).bind Outputs.csumOut = some 0x01FE := by decide
-- V1.8, as the sum of R50: 257 * 255 + 1 wraps to 0.
theorem test_csum16_wraps : csum16 (List.replicate 257 0xFF#8 ++ [0x01]) = 0x0000#16 := by decide +kernel
-- V2.8: swapped checksum bytes; V2.2: the threshold.
theorem test_validate_little_endian :
    (outputsOf (.transaction 1 0 [0x51, 0x00, 0x00, 0x00, 0x51])).bind Outputs.validOut = some false := by decide
-- V2.10: the length field is not looked at.
theorem test_validate_ignores_length :
    (outputsOf (.transaction 1 0 [0x63, 0x07, 0x00, 0x00, 0x00, 0x00, 0x00, 0x04, 0x00, 0x6E, 0x00])).bind Outputs.validOut =
      some true := by decide
-- V3.6.
theorem test_encode_request_data :
    (outputsOf (.transaction 2 0x63 [0x00, 0x00, 0x00, 0x00, 0x04, 0x00])).bind Outputs.out =
      some [0x63, 0x06, 0x00, 0x00, 0x00, 0x00, 0x00, 0x04, 0x00, 0x6D, 0x00] := by decide
-- V3.9: the length 258 is 02 01; its bytes enter the sum one by one.
theorem test_encode_long_length :
    ((outputsOf (.transaction 2 0x64 (List.replicate 258 0x00))).bind Outputs.out).map
      (fun f => (f.take 3, f.drop 261)) = some ([0x64, 0x02, 0x01], [0x67, 0x00]) := by decide +kernel
-- V4.13.
theorem test_decode_frame :
    outputsOf (.transaction 3 0 [0x64, 0x02, 0x00, 0x49, 0x4A, 0xF9, 0x00]) =
      some { status := some .ok, cmdOut := some 0x64, lenOut := some 2, out := some [0x49, 0x4A], csumOut := some 0x00F9 } := by
  decide
-- V4.6, V4.17, V4.25, V4.28: the order of the tests, and `need` does not wrap.
theorem test_decode_conditions :
    [[0x51, 0x00, 0x00, 0x52], [0x64, 0xFF, 0xFF, 0x00, 0x00],
     [0x63, 0x05, 0x00, 0x00, 0x00, 0x00, 0x00, 0x04, 0x00, 0xFF, 0xFF], [0x64, 0x01, 0x00, 0x41, 0x00, 0xA6]].map decodeStatus =
      [some 1, some 1, some 3, some 2] := by decide
-- V6.12, V6.16.
theorem test_classify_known :
    (outputsOf (.transaction 4 0x63 [])).map (fun o => (knownOut o, kindOut o)) = some (some 1, some 11) := by decide
theorem test_classify_unknown :
    (outputsOf (.transaction 4 0xE4 [])).map (fun o => (knownOut o, kindOut o)) = some (some 0, some 15) := by decide
-- V7.2.
theorem test_illegal_op :
    outputsOf (.transaction 6 0x63 [0x63, 0x06, 0x00, 0x00, 0x00, 0x00, 0x00, 0x04, 0x00, 0x6D, 0x00]) =
      some { status := some .illegalOp } := by decide

-- 10_state.md R10, R116: what an earlier transaction returned is not carried on.
theorem test_idle_step_has_no_outputs : nextOf (step (present .idle ⟨.idle, { status := some .ok, csumOut := some 7 }⟩)) =
    some ⟨.idle, {}⟩ := by decide

/-! ## The commands -/

/-- The kind named when a frame arrives. -/
def kindOf (bytes : List Byte) : Option (BitVec 4) := (outputsOf (.frame bytes)).bind kindOut

-- 95_test_vectors.md V6.20 to V6.35 with the kinds of V6.1 to V6.13.
theorem test_receive_file_names :
    [[0x51, 0x00, 0x00, 0x51, 0x00], [0x52, 0x00, 0x00, 0x52, 0x00]].map kindOf = [some 0, some 1] := by decide
theorem test_receive_negotiation :
    [[0x41, 0x09, 0x00, 0x78, 0x56, 0x34, 0x12, 0x02, 0xEF, 0xBE, 0xAD, 0xDE, 0x98, 0x04],
     [0x42, 0x09, 0x00, 0x11, 0x22, 0x33, 0x44, 0x02, 0xEF, 0xBE, 0xAD, 0xDE, 0x2F, 0x04],
     [0x44, 0x05, 0x00, 0x01, 0x00, 0x00, 0x00, 0x01, 0x4B, 0x00],
     [0x45, 0x0A, 0x00, 0x01, 0x00, 0x00, 0x00, 0x00, 0xC2, 0x01, 0x00, 0x64, 0x00, 0x77, 0x01],
     [0x46, 0x04, 0x00, 0x01, 0x00, 0x00, 0x00, 0x4B, 0x00],
     [0x47, 0x04, 0x00, 0x01, 0x00, 0x00, 0x00, 0x4C, 0x00]].map kindOf =
      [some 2, some 3, some 5, some 6, some 7, some 8] := by decide
theorem test_receive_capabilityNego :
    kindOf [0x43, 0x17, 0x00, 0x01, 0x00, 0x00, 0x00, 0x00, 0x01, 0x00, 0x00, 0x00, 0x0A, 0x00, 0x00, 0x00, 0x00,
      0x00, 0x00, 0x00, 0x00, 0xC2, 0x01, 0x00, 0x00, 0x04, 0x2D, 0x01] = some 4 := by decide
theorem test_receive_transfer :
    [[0x61, 0x02, 0x00, 0x55, 0xAA, 0x62, 0x01], [0x62, 0x04, 0x00, 0x0A, 0x00, 0x00, 0x00, 0x70, 0x00],
     [0x63, 0x06, 0x00, 0x00, 0x00, 0x00, 0x00, 0x04, 0x00, 0x6D, 0x00],
     [0x64, 0x04, 0x00, 0x41, 0x42, 0x43, 0x44, 0x72, 0x01]].map kindOf = [some 9, some 10, some 11, some 12] := by decide
-- V4.26: a payload that the table says is empty is carried all the same.
theorem test_receive_unchecked_payload :
    outputsOf (.frame [0x51, 0x02, 0x00, 0xAA, 0xBB, 0xB8, 0x01]) =
      some { status := some .ok, cmdOut := some 0x51, lenOut := some 2, out := some [0xAA, 0xBB], csumOut := some 0x01B8,
             kind := some .requestFileName } := by decide
-- P3 row 13: an unknown command is carried and named unknown.
theorem test_receive_unknown :
    (outputsOf (.frame [0x04, 0x06, 0x00, 0x00, 0x00, 0x00, 0x00, 0x63, 0x00, 0x6D, 0x00])).map
      (fun o => (statusPort o, o.cmdOut, knownOut o, kindOut o)) = some (some 0, some 0x04, some 0, some 15) := by decide

/-! ## Payloads (42_commands.md R86, R87, R89) -/

theorem test_payload_reply_size : replyFileSizePayload 10 = [0x0A, 0x00, 0x00, 0x00] := by decide
theorem test_payload_request_data : requestDataPayload 8 4 = [0x08, 0x00, 0x00, 0x00, 0x04, 0x00] := by decide
theorem test_packed_sizes :
    [Command.probeRequest, .capabilityNego, .capabilityAck, .switchBaudrate, .requestData].map packedSize = [9, 23, 5, 10, 6] := by
  decide
theorem test_size_follows_table :
    (sizeFollowsTable .requestFileName 2, sizeFollowsTable .probeResponse 17, sizeFollowsTable .probeResponse 18) =
      (false, true, false) := by decide

-- 60_exceptions.md R107: the table's rows, and no row for `OK` from ENCODE.
theorem test_caller_duties :
    [callerDuty 3 .ok, callerDuty 3 .truncated, callerDuty 3 .checksumMismatch, callerDuty 3 .malformed,
     callerDuty 2 .payloadTooLarge, commandDuty .unknownCommand, callerDuty 2 .ok] =
      [some .useFrame, some .keepReading, some .requestRetransmission, some .discardOrRetransmit, some .noneGiven,
       some .notSilentlyIgnored, none] := by decide

/-! ## Witnesses: hypotheses that a concrete case meets -/

/-- A state of the output side that no reset leaves. -/
def busy : State := ⟨.transaction 3 0 [0x51], { status := some .truncated }⟩

theorem witness_DecodeOfEncodeIsTheInstruction :
    (Instr.sendData 2#16 [0x49, 0x4A] 0xFFFF#16).wellFormed = true ∧ (Instr.csum16 [0x01]).wellFormed = true := by decide
theorem witness_DecodedFrameEncodesToItsBytes :
    decodeRequest (.frame [0x64, 0x01, 0x00, 0x41, 0xA6, 0x00]) = .ok (.sendData 1 [0x41] 0x00A6) := by decide
theorem witness_UnknownCommandsAreRejectedByName : ([0xAA#8, 0xBB#8] : List Byte).length = (2#16).toNat := by decide
theorem witness_StepRunsDecodedInstruction : decodeRequest busy.request = .ok (.decode [0x51]) := by decide
theorem witness_ReceiptIsDecodeThenClassify :
    nextOf (exec (.decode [0x51, 0x00, 0x00, 0x51, 0x00]) busy) ≠ none ∧ nextOf (exec (.decode [0x51]) busy) ≠ none := by decide
theorem witness_ReservedOpReportsIllegalOp : 5 ≤ (5#3).toNat ∧ 5 ≤ (7#3).toNat := by decide
theorem witness_InstructionsLeaveTheInputsAlone : nextOf (exec (.encode 0x64 [0x41]) busy) ≠ none := by decide
theorem witness_ResultDependsOnInputsAlone :
    -- with a transaction presented and with nothing
    busy.request = (present busy.request State.reset).request ∧ (present .idle busy).request = State.reset.request ∧
    busy.outputs ≠ (present busy.request State.reset).outputs ∧ (present .idle busy).outputs ≠ State.reset.outputs := by decide
theorem witness_RepeatingATransactionChangesNothing :
    nextOf (step busy) ≠ none ∧ nextOf (step State.reset) ≠ none := by decide
theorem witness_IgnoredPortsHaveNoEffect :
    nextOf (step (present (.transaction 0 1 [0x01]) busy)) ≠ none ∧ nextOf (step (present (.transaction 1 1 [0x01]) busy)) ≠ none ∧
    nextOf (step (present (.transaction 3 1 [0x01]) busy)) ≠ none ∧
    nextOf (step (present (.transaction 4 1 [0x01]) busy)) ≠ none := by decide
theorem witness_StepKeepsOutputsLegal : Inv busy ∧ nextOf (step busy) ≠ none :=
  ⟨.condition .truncated (by decide), by decide⟩
theorem witness_OutputPortsFollowTheOperation :
    -- every `op`, the reserved ones too; ENCODE and DECODE with `OK` and with a condition; a frame received and one damaged
    (∀ op : BitVec 3, nextOf (step (present (.transaction op 0x51 [0x51, 0x00, 0x00, 0x51, 0x00]) busy)) ≠ none) ∧
    [Request.transaction 2 0x51 [], .transaction 3 0 [0x51, 0x00, 0x00, 0x51, 0x00], .transaction 3 0 [0x51],
      .frame [0x51, 0x00, 0x00, 0x51, 0x00], .frame [0x51, 0x00, 0x00, 0x52, 0x00]].map
        (fun r => (outputsOf r).bind Outputs.status) =
      [some .ok, some .ok, some .truncated, some .ok, some .checksumMismatch] := by decide
theorem witness_StepIsTheStatelessBlock :
    -- nothing, a transaction, a reserved `op` and a frame presented where another transaction's outputs stand
    [Request.idle, .transaction 1 0 [0x51], .transaction 5 0 [], .frame [0x51, 0x00, 0x00, 0x51, 0x00]].all
      (fun r => (nextOf (step (present r busy))).isSome) = true := by decide
theorem witness_EveryTransactionEndsWithAStatus :
    -- a condition and `OK` of a transaction; a reserved `op`; a frame received with `OK` and with a condition
    busy.request ≠ .idle ∧ nextOf (step busy) ≠ none ∧
    [Request.transaction 0 0 [], .transaction 7 0 [], .frame [0x51, 0x00, 0x00, 0x51, 0x00],
      .frame [0x51, 0x00, 0x00, 0x52, 0x00]].all
        (fun r => decide (r ≠ .idle) && (nextOf (step (present r busy))).isSome) = true := by decide
theorem witness_ChecksumLaws :
    List.Perm ([0x01, 0x02, 0x03] : List Byte) [0x03, 0x02, 0x01] ∧ (List.replicate 257 0xFF#8).length ≤ 257 :=
  ⟨by decide, List.length_replicate.le⟩
theorem witness_OneChangedByteChangesTheChecksum :
    (0x00#8 : Byte) ≠ 0xFF#8 ∧ 0 < ([0x51] : List Byte).length ∧ 7 < 8 := by decide
theorem witness_ValidateComparesTheTrailingChecksum :
    ([0x00, 0x00, 0x00, 0x00] : List Byte).length < 5 ∧ 3 ≤ ([0x51, 0x00, 0x00] : List Byte).length := by decide
theorem witness_DecodeIsSizeAndValidate :
    -- accepted; of the right size with another checksum; of the wrong size
    (nextOf (exec (.decode [0x51, 0x00, 0x00, 0x51, 0x00]) busy)).isSome = true ∧
    (nextOf (exec (.validate [0x51, 0x00, 0x00, 0x51, 0x00]) busy)).isSome = true ∧
    (nextOf (exec (.decode [0x51, 0x00, 0x00, 0x50, 0x00]) busy)).isSome = true ∧
    (nextOf (exec (.validate [0x51, 0x00, 0x00, 0x50, 0x00]) busy)).isSome = true ∧
    (nextOf (exec (.decode [0x51, 0x01, 0x00, 0x51, 0x00]) busy)).isSome = true ∧
    (nextOf (exec (.validate [0x51, 0x01, 0x00, 0x51, 0x00]) busy)).isSome = true := by decide
theorem witness_EncodeBuildsTheFrame :
    (List.replicate 65535 0x00#8).length ≤ 65535 ∧ 65535 < (List.replicate 65536 0x00#8).length :=
  ⟨List.length_replicate.le, List.length_replicate.ge⟩
theorem witness_PayloadTooLargeExactlyAbove65535 :
    exec (.encode 0x64 (List.replicate 65536 0x00#8)) busy = onPorts (report .payloadTooLarge) busy ∧
    nextOf (exec (.encode 0x64 [0x41]) busy) ≠ none := by
  refine ⟨?_, by decide⟩
  rw [exec, execEncode, encodeReply, encodeFrame_large _ _ List.length_replicate.ge]

/-- ENCODE of one byte, and the frame it makes (V3.5). -/
theorem witness_encoded_frame :
    exec (.encode 0x64 [0x41]) busy =
      .next ⟨busy.request, { status := some .ok, out := some [0x64, 0x01, 0x00, 0x41, 0xA6, 0x00] }⟩ := by rfl

theorem witness_FrameFieldsAreLittleEndian :
    ∃ t, exec (.encode 0x64 [0x41]) busy = .next t ∧ t.outputs.out = some [0x64, 0x01, 0x00, 0x41, 0xA6, 0x00] :=
  ⟨_, witness_encoded_frame, rfl⟩
theorem witness_EncodedFramesAreValidAndDistinct :
    ∃ t u, exec (.encode 0x64 [0x41]) busy = .next t ∧ t.outputs.out = some [0x64, 0x01, 0x00, 0x41, 0xA6, 0x00] ∧
      exec (.validate [0x64, 0x01, 0x00, 0x41, 0xA6, 0x00]) t = .next u :=
  ⟨_, _, witness_encoded_frame, rfl, rfl⟩
theorem witness_DecodeTakesTheBufferApart :
    -- too short; 3 + rest < 5 + L and > 5 + L at the boundary; the exact size, with another checksum and with the right one
    ([0x51, 0x00, 0x00, 0x51] : List Byte).length < 5 ∧
    3 + ([0x00, 0x00] : List Byte).length < 5 + ((0x01#8).toNat + 256 * (0x00#8).toNat) ∧
    5 + ((0x00#8).toNat + 256 * (0x00#8).toNat) < 3 + ([0x51, 0x00, 0x00] : List Byte).length ∧
    ([0x41] : List Byte).length = (0x01#8).toNat + 256 * (0x00#8).toNat ∧
    byteSum [0x64, 0x01, 0x00, 0x41] % 65536 ≠ (0x00#8).toNat + 256 * (0xA6#8).toNat ∧
    byteSum [0x64, 0x01, 0x00, 0x41] % 65536 = (0xA6#8).toNat + 256 * (0x00#8).toNat := by decide
theorem witness_TruncatedExactlyWhenTooShort :
    exec (.decode [0x51, 0x00, 0x00, 0x51]) busy = .next ⟨busy.request, { status := some .truncated }⟩ ∧
    exec (.decode [0x64, 0xFF, 0xFF, 0x00, 0x00]) busy = .next ⟨busy.request, { status := some .truncated }⟩ := ⟨rfl, rfl⟩
theorem witness_MismatchExactlyWhenSizedAndDifferent :
    exec (.decode [0x51, 0x00, 0x00, 0x52, 0x00]) busy = .next ⟨busy.request, { status := some .checksumMismatch }⟩ := rfl
theorem witness_FramesAreFivePlusLengthBytes :
    ∃ t, exec (.decode [0x51, 0x00, 0x00, 0x51, 0x00]) busy = .next t ∧ t.outputs.lenOut = some 0#16 := ⟨_, rfl, rfl⟩
theorem witness_DecodeConditionsDeliverNothing :
    ∃ t, exec (.decode [0x51, 0x00, 0x00, 0x52, 0x00]) busy = .next t ∧ t.outputs.status ≠ some .ok := ⟨_, rfl, by decide⟩
theorem witness_DecodeUndoesEncode :
    ([] : List Byte).length ≤ 65535 ∧ (List.replicate 65535 0xFF#8).length ≤ 65535 :=
  ⟨Nat.zero_le _, List.length_replicate.le⟩
theorem witness_EncodeUndoesDecode :
    ∃ t, exec (.decode [0x64, 0x01, 0x00, 0x41, 0xA6, 0x00]) busy = .next t ∧ t.outputs.status = some .ok ∧
      t.outputs.cmdOut = some 0x64#8 ∧ t.outputs.out = some [0x41#8] := ⟨_, rfl, rfl, rfl, rfl⟩
theorem witness_OneFlippedBitIsNeverAccepted :
    -- command byte, length bit set, length bit cleared, payload, checksum field
    ∀ a ∈ [0, 1, 2, 3, 4, 5], ∃ t u, exec (.encode 0x64 [0x41]) busy = .next t ∧
      t.outputs.out = some [0x64, 0x01, 0x00, 0x41, 0xA6, 0x00] ∧ a < 6 ∧
      exec (.decode (flipBit [0x64, 0x01, 0x00, 0x41, 0xA6, 0x00] a 0)) t = .next u := by
  intro a ha
  simp only [List.mem_cons, List.not_mem_nil, or_false] at ha
  rcases ha with rfl | rfl | rfl | rfl | rfl | rfl <;> exact ⟨_, _, witness_encoded_frame, rfl, by decide, rfl⟩
theorem witness_OneFlippedBitIsNeverAccepted_length_bits :
    (([0x64, 0x01, 0x00, 0x41, 0xA6, 0x00] : List Byte).getD 1 0#8).getLsbD 0 = true ∧
    (([0x64, 0x01, 0x00, 0x41, 0xA6, 0x00] : List Byte).getD 2 0#8).getLsbD 0 = false := by decide
theorem witness_PrefixesAreTruncated :
    (∃ t u, exec (.encode 0x64 [0x41]) busy = .next t ∧ t.outputs.out = some [0x64, 0x01, 0x00, 0x41, 0xA6, 0x00] ∧ 5 < 6 ∧
      exec (.decode (([0x64, 0x01, 0x00, 0x41, 0xA6, 0x00] : List Byte).take 5)) t = .next u) ∧
    3 + ([0x00, 0x00] : List Byte).length < 5 + (fromLe16 0x01 0x00).toNat :=
  ⟨⟨_, _, witness_encoded_frame, rfl, by decide, rfl⟩, by decide⟩
theorem witness_FramesWithExcessAreMalformed :
    ∃ t u, exec (.encode 0x64 [0x41]) busy = .next t ∧ t.outputs.out = some [0x64, 0x01, 0x00, 0x41, 0xA6, 0x00] ∧
      ([0x00] : List Byte) ≠ [] ∧ exec (.decode ([0x64, 0x01, 0x00, 0x41, 0xA6, 0x00] ++ [0x00])) t = .next u :=
  ⟨_, _, witness_encoded_frame, rfl, by decide, rfl⟩
theorem witness_WrongLengthIsNeverAccepted :
    ([0x41] : List Byte).length ≠ (fromLe16 0x02 0x00).toNat ∧
    ∃ t, exec (.decode [0x64, 0x02, 0x00, 0x41, 0xA7, 0x00]) busy = .next t := ⟨by decide, _, rfl⟩
theorem witness_OneChangedByteIsDetected :
    ∃ t u, exec (.encode 0x64 [0x41]) busy = .next t ∧ t.outputs.out = some [0x64, 0x01, 0x00, 0x41, 0xA6, 0x00] ∧ 5 < 6 ∧
      (5 : Nat) ≠ 1 ∧ (5 : Nat) ≠ 2 ∧ (0xFF#8 : Byte) ≠ ([0x64, 0x01, 0x00, 0x41, 0xA6, 0x00] : List Byte).getD 5 0#8 ∧
      exec (.decode (([0x64, 0x01, 0x00, 0x41, 0xA6, 0x00] : List Byte).set 5 0xFF)) t = .next u :=
  ⟨_, _, witness_encoded_frame, rfl, by decide, by decide, by decide, by decide, rfl⟩
-- P3 rows 10 and 13: payload bytes exchanged; the command byte and a payload byte exchanged.
theorem witness_ReorderedFramesAreAccepted :
    List.Perm ([0x63, 0x00, 0x00, 0x00, 0x00, 0x04, 0x00] : List Byte) [0x04, 0x00, 0x00, 0x00, 0x00, 0x63, 0x00] ∧
    ([0x00, 0x00, 0x00, 0x00, 0x04, 0x00] : List Byte).length = (6#16).toNat ∧
    (0x006D#16 : Half) = csum16 (header 0x63 6 ++ [0x00, 0x00, 0x00, 0x00, 0x04, 0x00]) := by decide
theorem witness_ClassificationByAnyTable :
    -- the default table, and another one in which 0x51 is unknown and 0xF0 names a command
    (commandTable.map Prod.fst).Nodup ∧ (([(0xF0, .sendData)] : CommandTable).map Prod.fst).Nodup ∧
    (0xF0#8, Command.sendData) ∈ ([(0xF0, .sendData)] : CommandTable) ∧
    0x51#8 ∉ ([(0xF0, .sendData)] : CommandTable).map Prod.fst := by decide
theorem witness_CommandTableTouchesClassificationAlone :
    (3#3 : BitVec 3) ≠ 4#3 ∧ (nextOf (exec (.decode [0x51, 0x00, 0x00, 0x51, 0x00]) busy)).isSome = true ∧
    ([] : List Byte).length = (0#16).toNat := by decide
-- 92_eei_decisions.md D19: another table changes what CLASSIFY answers.
theorem test_classify_by_another_table :
    [0xF0#8, 0x51#8].map (fun c => (nextOf (stepWith [(0xF0, .sendData)] (present (.transaction 4 c []) busy))).bind
      fun t => kindOut t.outputs) = [some 12, some 15] := by decide
theorem witness_FileNameFramesAreCarried :
    ([] : List Byte).length = (0#16).toNat ∧ (0x0051#16 : Half) = csum16 (header 0x51 0 ++ []) ∧
    (0x0052#16 : Half) = csum16 (header 0x52 0 ++ []) := by decide
theorem witness_NegotiationFramesAreCarried :
    ([0x01, 0x00, 0x00, 0x00] : List Byte).length = (4#16).toNat ∧
    [0x41#8, 0x42#8, 0x43#8, 0x44#8, 0x45#8, 0x46#8, 0x47#8].map (fun c => csum16 (header c 4 ++ [0x01, 0x00, 0x00, 0x00])) =
      [0x46, 0x47, 0x48, 0x49, 0x4A, 0x4B, 0x4C] := by decide
theorem witness_TransferFramesAreCarried :
    ([0x55, 0xAA] : List Byte).length = (2#16).toNat ∧
    [0x61#8, 0x62#8, 0x63#8, 0x64#8].map (fun c => csum16 (header c 2 ++ [0x55, 0xAA])) = [0x162, 0x163, 0x164, 0x165] := by decide
theorem witness_DamagedCommandFramesAreReported :
    ([0x41] : List Byte).length = (1#16).toNat ∧ (0x0000#16 : Half) ≠ csum16 (header 0x64 1 ++ [0x41]) ∧
    ([0x41] : List Byte).length < (2#16).toNat ∧ (0#16).toNat < ([0x41] : List Byte).length := by decide
theorem witness_ReadsAreDefinedInsideTheBuffer : memRead [0x51, 0x00] 1 1 = some [0x00] ∧ memRead [0x51, 0x00] 1 2 = none := by
  decide

end Sys2Proof.Tests
end

section
/-! SUPPORT. What ENCODE leaves on `OUT`, and where the fields of a wire frame stand in it (20_memory.md R22). -/

namespace Sys2Proof.Machine

/-- ENCODE of a payload that fits delivers the wire frame (41_framecodec.md R60). -/
theorem exec_encode_fits (cmdIn : Byte) (input : List Byte) (s : State) (h : input.length ≤ 65535) :
    exec (.encode cmdIn input) s = .next { s with outputs := { status := some .ok, out := some (wireFrame cmdIn input) } } := by
  rw [exec, execEncode, encodeReply, encodeFrame_fits _ _ h, onPorts_deliver]

/-- ENCODE of a payload that is too long reports `PAYLOAD_TOO_LARGE` alone (60_exceptions.md R96). -/
theorem exec_encode_large (cmdIn : Byte) (input : List Byte) (s : State) (h : 65535 < input.length) :
    exec (.encode cmdIn input) s = .next { s with outputs := { status := some .payloadTooLarge } } := by
  rw [exec, execEncode, encodeReply, encodeFrame_large _ _ h, onPorts_report]

/-- A frame on `OUT` after ENCODE is the wire frame of a payload that fits. -/
theorem eq_wireFrame_of_exec_encode {cmdIn : Byte} {input frame : List Byte} {s t : State}
    (hexec : exec (.encode cmdIn input) s = .next t) (hout : t.outputs.out = some frame) :
    input.length ≤ 65535 ∧ frame = wireFrame cmdIn input := by
  rcases Nat.lt_or_ge 65535 input.length with hlarge | hfits
  · rw [exec_encode_large _ _ _ hlarge] at hexec
    cases hexec
    cases hout
  · rw [exec_encode_fits _ _ _ hfits] at hexec
    cases hexec
    cases hout
    exact ⟨hfits, rfl⟩

/-- The low byte of a frame's length stands at offset 1 (20_memory.md R22). -/
theorem byteAt_frameBytes_lengthLow (command : Byte) (length : Half) (payload : List Byte) (checksum : Half) :
    byteAt (frameBytes command length payload checksum) 1 = some (lo8 length) := by
  rw [byteAt_eq_getElem?, frameBytes_eq]
  rfl

/-- The high byte of a frame's length stands at offset 2 (20_memory.md R22). -/
theorem byteAt_frameBytes_lengthHigh (command : Byte) (length : Half) (payload : List Byte) (checksum : Half) :
    byteAt (frameBytes command length payload checksum) 2 = some (hi8 length) := by
  rw [byteAt_eq_getElem?, frameBytes_eq]
  rfl

/-- Behind its header and its payload a frame holds `le16` of its checksum. -/
theorem byteAt_frameBytes_behindPayload (command : Byte) (length : Half) (payload : List Byte) (checksum : Half) (k : Nat) :
    byteAt (frameBytes command length payload checksum) (3 + payload.length + k) = (le16 checksum)[k]? := by
  have hfront : (header command length ++ payload).length = 3 + payload.length := by simp
  rw [byteAt_eq_getElem?, frameBytes, ← List.append_assoc, List.getElem?_append_right (by omega), hfront, Nat.add_sub_cancel_left]

/-- The low byte of a frame's checksum stands at offset `3 + L` (20_memory.md R22). -/
theorem byteAt_frameBytes_checksumLow (command : Byte) (length : Half) (payload : List Byte) (checksum : Half) :
    byteAt (frameBytes command length payload checksum) (3 + payload.length) = some (lo8 checksum) :=
  byteAt_frameBytes_behindPayload command length payload checksum 0

/-- The high byte of a frame's checksum stands at offset `4 + L` (20_memory.md R22). -/
theorem byteAt_frameBytes_checksumHigh (command : Byte) (length : Half) (payload : List Byte) (checksum : Half) :
    byteAt (frameBytes command length payload checksum) (4 + payload.length) = some (hi8 checksum) := by
  rw [Nat.add_right_comm 3 1]
  exact byteAt_frameBytes_behindPayload command length payload checksum 1

/-- The covered bytes of a wire frame are its header and its payload (40_checksum.md R55). -/
theorem take_wireFrame (command : Byte) (payload : List Byte) :
    (wireFrame command payload).take (3 + payload.length) =
      header command (BitVec.ofNat 16 payload.length) ++ payload := by
  rw [wireFrame, frameBytes, ← List.append_assoc]
  exact List.take_left' (by simp)

end Sys2Proof.Machine
end

section
/-! The proof of the obligation of 20_memory.md. -/

namespace Sys2Proof.Proofs.Memory
open Sys2Proof.Machine

/-- Settles O27: the frame on `OUT` is the wire frame, whose two fields are `le16` of the payload's size, which fits its field, and
`le16` of the checksum of the covered bytes. -/
theorem frameFieldsAreLittleEndian : Obligations.FrameFieldsAreLittleEndian := by
  intro cmdIn input frame s t hexec hout
  obtain ⟨hfits, rfl⟩ := eq_wireFrame_of_exec_encode hexec hout
  have hlength : (BitVec.ofNat 16 input.length).toNat = input.length := by
    rw [BitVec.toNat_ofNat, Nat.mod_eq_of_lt (by omega)]
  rw [take_wireFrame, wireFrame, byteAt_frameBytes_lengthLow, byteAt_frameBytes_lengthHigh, byteAt_frameBytes_checksumLow,
    byteAt_frameBytes_checksumHigh]
  simp only [Option.map_some, toNat_lo8, toNat_hi8, hlength, and_self]

end Sys2Proof.Proofs.Memory
end

section
/-! SUPPORT. What DECODE leaves on the output ports, said once for all buffers and once for a frame whose checksum is right
(41_framecodec.md R62, R64). -/

namespace Sys2Proof.Machine

/-- The bytes of a valid Frame record are as many as 30_encoding.md R36 says. -/
theorem length_frameBytes_of_valid {f : Frame} (hvalid : Safety.FrameValid f) :
    (frameBytes f.command f.length f.payload f.checksum).length = 5 + f.length.toNat := by
  obtain ⟨hlength, -⟩ := hvalid
  rw [length_frameBytes, hlength]

/-- All that DECODE can do: report a condition alone, or deliver the valid Frame record whose bytes are the buffer
(41_framecodec.md R64). -/
theorem exec_decode_cases (buffer : List Byte) (s : State) :
    (∃ st, st ≠ .ok ∧ exec (.decode buffer) s = .next { s with outputs := { status := some st } }) ∨
    (∃ f, Safety.FrameValid f ∧ buffer = frameBytes f.command f.length f.payload f.checksum ∧
      exec (.decode buffer) s = .next { s with outputs := { frameOutputs f with status := some .ok } }) := by
  rcases decodeBuffer_cases buffer with ⟨st, hdecode, hst⟩ | ⟨f, hdecode, hvalid, hbytes⟩
  · refine .inl ⟨st, hst, ?_⟩
    rw [exec, execDecode, decodeReply, hdecode, onPorts_report]
  · refine .inr ⟨f, hvalid, hbytes, ?_⟩
    rw [exec, execDecode, decodeReply, hdecode, onPorts_deliver]

/-- DECODE of the bytes of a valid Frame record delivers that record, whatever its command and its payload
(41_framecodec.md R66, R72). -/
theorem exec_decode_frameBytes (f : Frame) (s : State) (hvalid : Safety.FrameValid f) :
    exec (.decode (frameBytes f.command f.length f.payload f.checksum)) s =
      .next { s with outputs := { frameOutputs f with status := some .ok } } := by
  obtain ⟨hlength, hchecksum⟩ := hvalid
  rw [exec, execDecode, decodeReply, decodeBuffer_frameBytes _ _ _ _ hlength.symm, if_pos hchecksum.symm, onPorts_deliver]

/-- A Frame record on the ports after DECODE is a valid one whose bytes are the buffer, and its length is the one on `len_out`. -/
theorem exists_frame_of_exec_decode_lenOut {buffer : List Byte} {s t : State} {length : Half}
    (hexec : exec (.decode buffer) s = .next t) (hlen : t.outputs.lenOut = some length) :
    ∃ f, Safety.FrameValid f ∧ buffer = frameBytes f.command f.length f.payload f.checksum ∧ f.length = length := by
  rcases exec_decode_cases buffer s with ⟨st, -, hnext⟩ | ⟨f, hvalid, hbytes, hnext⟩
  · rw [hnext] at hexec
    cases hexec
    cases hlen
  · rw [hnext] at hexec
    cases hexec
    cases hlen
    exact ⟨f, hvalid, hbytes, rfl⟩

end Sys2Proof.Machine
end

section
/-! The proof of the obligation of 30_encoding.md. -/

namespace Sys2Proof.Proofs.Encoding
open Sys2Proof.Machine

/-- The valid Frame record of a command byte and `L` payload bytes, all of them 0 (10_state.md R17). -/
def zeroFrame (command : Byte) (length : Half) : Frame :=
  let payload := List.replicate length.toNat 0#8
  { command, length, payload, checksum := csum16 (header command length ++ payload) }

theorem zeroFrame_valid (command : Byte) (length : Half) : Safety.FrameValid (zeroFrame command length) :=
  ⟨List.length_replicate.symm, rfl⟩

/-- Settles O32: a buffer that DECODE accepts is the bytes of a valid Frame record, whose size follows from its 16-bit length; and for
every length the record with that many zero bytes is accepted. -/
theorem framesAreFivePlusLengthBytes : Obligations.FramesAreFivePlusLengthBytes := by
  refine ⟨fun buffer s t length hexec hlen => ?_, fun length s => ?_⟩
  · obtain ⟨f, hvalid, rfl, rfl⟩ := exists_frame_of_exec_decode_lenOut hexec hlen
    have hsize := length_frameBytes_of_valid hvalid
    have hfield : f.length.toNat < 65536 := f.length.isLt
    exact ⟨hsize, by omega, by omega⟩
  · have hvalid := zeroFrame_valid 0x51 length
    exact ⟨_, _, length_frameBytes_of_valid hvalid, exec_decode_frameBytes _ s hvalid, rfl, rfl⟩

end Sys2Proof.Proofs.Encoding
end

section
/-! SUPPORT. The checksum as a number, and what CSUM16 does (40_checksum.md R50). -/

namespace Sys2Proof.Machine
open Sys2Proof.Claims

@[simp] theorem byteSum_nil : byteSum [] = 0 := rfl

@[simp] theorem byteSum_cons (b : Byte) (bytes : List Byte) : byteSum (b :: bytes) = b.toNat + byteSum bytes := rfl

/-- The 16-bit loop computes the sum of the unsigned bytes mod 65536: dropping a carry at each step or once at the end is the same
(40_checksum.md R50, R52). -/
theorem toNat_csum16 (bytes : List Byte) : (csum16 bytes).toNat = byteSum bytes % 65536 := by
  induction bytes with
  | nil => rfl
  | cons b rest ih =>
    have hbyte : (b.setWidth 16).toNat = b.toNat := BitVec.toNat_setWidth_of_le (by decide)
    rw [csum16_cons, byteSum_cons, BitVec.toNat_add, hbyte, ih, Nat.add_mod_mod]

/-- CSUM16 delivers the checksum of `IN` and nothing else, and leaves the request standing (40_checksum.md R50). -/
theorem exec_csum16 (input : List Byte) (s : State) :
    exec (.csum16 input) s = .next { s with outputs := { status := some .ok, csumOut := some (csum16 input) } } := by
  rw [exec, execCsum16, csum16Reply, onPorts_deliver]

end Sys2Proof.Machine
end

section
/-! The proof of the obligation of 40_checksum.md. -/

namespace Sys2Proof.Proofs.Checksum
open Sys2Proof.Machine

/-- Settles O19: CSUM16 delivers `csum16` of the bytes alone, and that 16-bit word is the one whose number is the sum of the bytes
mod 65536. -/
theorem csum16IsTheSumOfTheBytes : Obligations.Csum16IsTheSumOfTheBytes := by
  intro input s
  rw [exec_csum16, ← toNat_csum16, BitVec.ofNat_toNat, BitVec.setWidth_eq]

end Sys2Proof.Proofs.Checksum
end

section
/-! SUPPORT. The fields of the frame that ENCODE makes, and each condition of DECODE with the buffers that raise it
(41_framecodec.md R60, R62). -/

namespace Sys2Proof.Machine

/-- The wire frame of a payload of at most 65535 bytes holds the payload's size in its length field (30_encoding.md R37). -/
theorem exists_length_of_wireFrame (command : Byte) {payload : List Byte} (hfits : payload.length ≤ 65535) :
    ∃ length : Half, length.toNat = payload.length ∧
      wireFrame command payload = frameBytes command length payload (csum16 (header command length ++ payload)) := by
  refine ⟨BitVec.ofNat 16 payload.length, ?_, rfl⟩
  rw [BitVec.toNat_ofNat, Nat.mod_eq_of_lt (by omega)]

/-- A frame on `OUT` after ENCODE, with its length field and its checksum field. -/
theorem exists_length_of_exec_encode {cmdIn : Byte} {input frame : List Byte} {s t : State}
    (hexec : exec (.encode cmdIn input) s = .next t) (hout : t.outputs.out = some frame) :
    ∃ length : Half, length.toNat = input.length ∧
      frame = frameBytes cmdIn length input (csum16 (header cmdIn length ++ input)) := by
  obtain ⟨hfits, rfl⟩ := eq_wireFrame_of_exec_encode hexec hout
  exact exists_length_of_wireFrame cmdIn hfits

/-- A condition of DECODE's procedure is what DECODE reports, alone (41_framecodec.md R64). -/
theorem exec_decode_of_raised {buffer : List Byte} {st : Status} (s : State)
    (hraised : decodeBuffer buffer = some (.raised st)) :
    exec (.decode buffer) s = .next { s with outputs := { status := some st } } := by
  rw [exec, execDecode, decodeReply, hraised, onPorts_report]

/-- DECODE of a frame whose payload is shorter than its length field says. -/
theorem exec_decode_frameBytes_truncated (command : Byte) {length : Half} {payload : List Byte} (checksum : Half) (s : State)
    (hshort : payload.length < length.toNat) :
    exec (.decode (frameBytes command length payload checksum)) s =
      .next { s with outputs := { status := some .truncated } } := by
  refine exec_decode_of_raised s ?_
  rw [frameBytes_eq]
  exact decodeBuffer_truncated _ _ _ _ (by simpa using hshort)

/-- DECODE of a frame whose payload is longer than its length field says. -/
theorem exec_decode_frameBytes_malformed (command : Byte) {length : Half} {payload : List Byte} (checksum : Half) (s : State)
    (hlong : length.toNat < payload.length) :
    exec (.decode (frameBytes command length payload checksum)) s =
      .next { s with outputs := { status := some .malformed } } := by
  refine exec_decode_of_raised s ?_
  rw [frameBytes_eq]
  exact decodeBuffer_malformed _ _ _ _ (by simpa using hlong)

/-- DECODE of a frame of the right size with another checksum. -/
theorem exec_decode_frameBytes_mismatch {command : Byte} {length : Half} {payload : List Byte} {checksum : Half} (s : State)
    (hlength : payload.length = length.toNat) (hchecksum : csum16 (header command length ++ payload) ≠ checksum) :
    exec (.decode (frameBytes command length payload checksum)) s =
      .next { s with outputs := { status := some .checksumMismatch } } := by
  refine exec_decode_of_raised s ?_
  rw [decodeBuffer_frameBytes _ _ _ _ hlength, if_neg hchecksum]

/-- DECODE of fewer bytes than a frame whose payload has the size in its length field (41_framecodec.md R69). -/
theorem exec_decode_take_frameBytes (command : Byte) {length : Half} {payload : List Byte} (checksum : Half) {k : Nat} (s : State)
    (hlength : payload.length = length.toNat) (hk : k < 5 + payload.length) :
    exec (.decode ((frameBytes command length payload checksum).take k)) s =
      .next { s with outputs := { status := some .truncated } } := by
  refine exec_decode_of_raised s ?_
  rcases Nat.lt_or_ge k 3 with hheader | hrest
  · exact decodeBuffer_short _ (by rw [List.length_take]; omega)
  · obtain ⟨j, rfl⟩ := Nat.exists_eq_add_of_le' hrest
    rw [frameBytes_eq]
    refine decodeBuffer_truncated _ _ _ _ ?_
    rw [fromLe16_lo8_hi8, List.length_take]
    omega

end Sys2Proof.Machine
end

section
/-! SUPPORT. One byte of a frame replaced: the frame that results, by the region the byte lies in, and that the checksum notices any
byte it covers (40_checksum.md R51, 41_framecodec.md R68). -/

namespace Sys2Proof.Machine

/-- One byte replaced keeps the checksum only if it keeps the bytes (40_checksum.md R51 items 5 and 6). -/
theorem set_eq_self_of_csum16_eq {bytes : List Byte} {i : Nat} {b : Byte} (hsum : csum16 (bytes.set i b) = csum16 bytes) :
    bytes.set i b = bytes := by
  induction bytes generalizing i with
  | nil => rfl
  | cons x rest ih =>
    cases i with
    | zero =>
      rw [List.set_cons_zero, csum16_cons, csum16_cons, BitVec.add_left_inj] at hsum
      have hbyte : b = x := by simpa using congrArg (BitVec.setWidth 8) hsum
      rw [List.set_cons_zero, hbyte]
    | succ j =>
      rw [List.set_cons_succ, csum16_cons, csum16_cons, BitVec.add_right_inj] at hsum
      rw [List.set_cons_succ, ih hsum]

/-- A byte replaced by another one is a change. -/
theorem set_ne_self_of_ne_getD {bytes : List Byte} {a : Nat} {b : Byte} (hinside : a < bytes.length)
    (hne : b ≠ bytes.getD a 0#8) : bytes.set a b ≠ bytes := by
  intro hset
  refine hne ?_
  rw [← hset, List.getD_eq_getElem?_getD, List.getElem?_set_self hinside, Option.getD_some]

section
variable (command : Byte) (length : Half) (payload : List Byte) (checksum : Half) (b : Byte)

theorem frameBytes_set_command :
    (frameBytes command length payload checksum).set 0 b = frameBytes b length payload checksum := rfl

theorem frameBytes_set_lengthLow :
    (frameBytes command length payload checksum).set 1 b =
      frameBytes command (fromLe16 b (hi8 length)) payload checksum := by
  simp [frameBytes_eq]

theorem frameBytes_set_lengthHigh :
    (frameBytes command length payload checksum).set 2 b =
      frameBytes command (fromLe16 (lo8 length) b) payload checksum := by
  simp [frameBytes_eq]

theorem frameBytes_set_payload {i : Nat} (hi : i < payload.length) :
    (frameBytes command length payload checksum).set (i + 3) b =
      frameBytes command length (payload.set i b) checksum := by
  simp [frameBytes_eq, List.set_append_left _ _ hi]

theorem frameBytes_set_checksumLow :
    (frameBytes command length payload checksum).set (payload.length + 3) b =
      frameBytes command length payload (fromLe16 b (hi8 checksum)) := by
  simp [frameBytes_eq]

theorem frameBytes_set_checksumHigh :
    (frameBytes command length payload checksum).set (payload.length + 4) b =
      frameBytes command length payload (fromLe16 (lo8 checksum) b) := by
  simp [frameBytes_eq]

end

/-- DECODE of a valid frame with one byte outside the length field changed: a covered byte moves the sum and not the received
checksum, a byte of the checksum field moves the received checksum and not the sum (41_framecodec.md R68, first and last two rows). -/
theorem exec_decode_set_outsideLength {command : Byte} {length : Half} {payload : List Byte} {a : Nat} {b : Byte} (s : State)
    (hlength : payload.length = length.toNat) (houtside : a = 0 ∨ 3 ≤ a) (hinside : a < 5 + payload.length)
    (hchanged : (frameBytes command length payload (csum16 (header command length ++ payload))).set a b ≠
      frameBytes command length payload (csum16 (header command length ++ payload))) :
    exec (.decode ((frameBytes command length payload (csum16 (header command length ++ payload))).set a b)) s =
      .next { s with outputs := { status := some .checksumMismatch } } := by
  have hregions : a = 0 ∨ (∃ i < payload.length, a = i + 3) ∨ a = payload.length + 3 ∨ a = payload.length + 4 := by
    rcases houtside with hzero | hthree
    · exact .inl hzero
    · obtain ⟨i, rfl⟩ := Nat.exists_eq_add_of_le' hthree
      rcases Nat.lt_or_ge i payload.length with hi | hi
      · exact .inr (.inl ⟨i, hi, rfl⟩)
      · omega
  rcases hregions with rfl | ⟨i, hi, rfl⟩ | rfl | rfl
  · rw [frameBytes_set_command] at hchanged ⊢
    refine exec_decode_frameBytes_mismatch s hlength fun hsum => hchanged ?_
    have hkept := set_eq_self_of_csum16_eq (bytes := header command length ++ payload) (i := 0) hsum
    rw [(List.cons.inj hkept).1]
  · rw [frameBytes_set_payload _ _ _ _ _ hi] at hchanged ⊢
    refine exec_decode_frameBytes_mismatch s (by rw [List.length_set, hlength]) fun hsum => hchanged ?_
    rw [csum16_append, csum16_append, BitVec.add_right_inj] at hsum
    rw [set_eq_self_of_csum16_eq hsum]
  · rw [frameBytes_set_checksumLow] at hchanged ⊢
    exact exec_decode_frameBytes_mismatch s hlength fun hsum => hchanged (by rw [← hsum])
  · rw [frameBytes_set_checksumHigh] at hchanged ⊢
    exact exec_decode_frameBytes_mismatch s hlength fun hsum => hchanged (by rw [← hsum])

/-- A frame with one byte of the length field replaced is the frame with another length field, which is larger or smaller as that
byte is. -/
theorem exists_length_of_set_lengthField (command : Byte) (length : Half) (payload : List Byte) (checksum : Half) {a : Nat} (b : Byte)
    (hfield : a = 1 ∨ a = 2) :
    ∃ length' : Half, (frameBytes command length payload checksum).set a b = frameBytes command length' payload checksum ∧
      (((frameBytes command length payload checksum).getD a 0#8).toNat < b.toNat → length.toNat < length'.toNat) ∧
      (b.toNat < ((frameBytes command length payload checksum).getD a 0#8).toNat → length'.toNat < length.toNat) := by
  rcases hfield with rfl | rfl
  · have hold : (frameBytes command length payload checksum).getD 1 0#8 = lo8 length := rfl
    refine ⟨_, frameBytes_set_lengthLow .., ?_⟩
    rw [hold, toNat_fromLe16, toNat_lo8, toNat_hi8]
    omega
  · have hold : (frameBytes command length payload checksum).getD 2 0#8 = hi8 length := rfl
    refine ⟨_, frameBytes_set_lengthHigh .., ?_⟩
    rw [hold, toNat_fromLe16, toNat_lo8, toNat_hi8]
    omega

end Sys2Proof.Machine
end

section
/-! SUPPORT. One bit of a byte flipped, as `flipBit` flips it: a 0 bit set makes the byte larger, a 1 bit cleared makes it smaller. -/

namespace Sys2Proof.Machine

theorem getLsbD_xor_one_shiftLeft (x : Byte) {k : Nat} (hk : k < 8) (j : Nat) :
    (x ^^^ (1#8 <<< k)).getLsbD j = (x.getLsbD j ^^ decide (k = j)) := by
  rw [← BitVec.twoPow_eq, BitVec.getLsbD_xor, BitVec.getLsbD_twoPow, decide_eq_true hk, Bool.true_and]

/-- A flipped bit is the other bit, and the bits above it are as before. -/
theorem flipped_bits (x : Byte) {k : Nat} (hk : k < 8) :
    (x ^^^ (1#8 <<< k)).toNat.testBit k = !x.toNat.testBit k ∧
    ∀ j, k < j → (x ^^^ (1#8 <<< k)).toNat.testBit j = x.toNat.testBit j := by
  simp only [BitVec.testBit_toNat, getLsbD_xor_one_shiftLeft x hk]
  refine ⟨by rw [decide_true, Bool.xor_true], fun j hj => ?_⟩
  rw [decide_eq_false (Nat.ne_of_lt hj), Bool.xor_false]

theorem toNat_lt_flipped {x : Byte} {k : Nat} (hk : k < 8) (hclear : x.getLsbD k = false) :
    x.toNat < (x ^^^ (1#8 <<< k)).toNat := by
  obtain ⟨hbit, habove⟩ := flipped_bits x hk
  have hx : x.toNat.testBit k = false := hclear
  exact Nat.lt_of_testBit k hx (by rw [hbit, hx]; rfl) fun j hj => (habove j hj).symm

theorem toNat_flipped_lt {x : Byte} {k : Nat} (hk : k < 8) (hset : x.getLsbD k = true) :
    (x ^^^ (1#8 <<< k)).toNat < x.toNat := by
  obtain ⟨hbit, habove⟩ := flipped_bits x hk
  have hx : x.toNat.testBit k = true := hset
  exact Nat.lt_of_testBit k (by rw [hbit, hx]; rfl) hx habove

theorem flipped_ne (x : Byte) {k : Nat} (hk : k < 8) : x ^^^ (1#8 <<< k) ≠ x := by
  intro hsame
  have hbit := (flipped_bits x hk).1
  rw [hsame] at hbit
  exact (Bool.eq_not_self _).mp hbit

end Sys2Proof.Machine
end

section
/-! The proofs of the obligations of 41_framecodec.md R60, R66, R68 and R69. -/

namespace Sys2Proof.Proofs.FrameCodec
open Sys2Proof.Machine Sys2Proof.Claims

/-- Settles O25: the frame is the wire frame, whose length field holds the size because the payload fits, and whose checksum is the
byte sum mod 65536. -/
theorem encodeBuildsTheFrame : Obligations.EncodeBuildsTheFrame := by
  refine fun cmdIn input s => ⟨fun hfits => ?_, exec_encode_large cmdIn input s⟩
  obtain ⟨length, hlength, hframe⟩ := exists_length_of_wireFrame cmdIn hfits
  refine ⟨length, _, wireFrame cmdIn input, hlength, toNat_csum16 _, hframe, exec_encode_fits cmdIn input s hfits, ?_⟩
  rw [nOut, Option.map_some, length_wireFrame]

/-- Settles O34: the wire frame is the bytes of a valid Frame record, and DECODE delivers the record of its bytes. -/
theorem decodeUndoesEncode : Obligations.DecodeUndoesEncode := by
  intro cmd payload s s' hfits
  obtain ⟨length, hlength, hframe⟩ := exists_length_of_wireFrame cmd hfits
  refine ⟨wireFrame cmd payload, length, hlength, exec_encode_fits cmd payload s hfits, ?_⟩
  rw [hframe]
  exact exec_decode_frameBytes ⟨cmd, length, payload, _⟩ s' ⟨hlength, rfl⟩

/-- Settles O36: outside the length field a flipped bit changes the sum or the received checksum, not both; inside it the size of
the frame no longer is the one asked for, and the flipped bit says in which direction. -/
theorem oneFlippedBitIsNeverAccepted : Obligations.OneFlippedBitIsNeverAccepted := by
  intro cmd payload frame a k s t u hencode hout hinside hk hdecode
  obtain ⟨length, hlength, rfl⟩ := exists_length_of_exec_encode hencode hout
  rw [flipBit] at hdecode
  rcases (by omega : (a = 0 ∨ 3 ≤ a) ∨ a = 1 ∨ a = 2) with houtside | hfield
  · have hchanged := set_ne_self_of_ne_getD hinside (flipped_ne _ hk)
    rw [length_frameBytes] at hinside
    rw [exec_decode_set_outsideLength t hlength.symm houtside hinside hchanged] at hdecode
    cases hdecode
    exact ⟨by simp, fun _ => rfl, by omega, by omega⟩
  · obtain ⟨length', hset, hlarger, hsmaller⟩ := exists_length_of_set_lengthField cmd length payload _ _ hfield
    rw [hset] at hdecode
    cases hbit : ((frameBytes cmd length payload (csum16 (header cmd length ++ payload))).getD a 0#8).getLsbD k with
    | false =>
      rw [exec_decode_frameBytes_truncated cmd _ t (hlength ▸ hlarger (toNat_lt_flipped hk hbit))] at hdecode
      cases hdecode
      exact ⟨by simp, by omega, fun _ _ => rfl, by simp⟩
    | true =>
      rw [exec_decode_frameBytes_malformed cmd _ t (hlength ▸ hsmaller (toNat_flipped_lt hk hbit))] at hdecode
      cases hdecode
      exact ⟨by simp, by omega, by simp, fun _ _ => rfl⟩

/-- Settles O37: the first bytes of a frame, where they show a length field, show that of the whole frame, which asks for more bytes. -/
theorem prefixesAreTruncated : Obligations.PrefixesAreTruncated := by
  refine ⟨fun cmd payload frame k s t u hencode hout hk hdecode => ?_, fun command l0 l1 rest s hshort => ?_⟩
  · obtain ⟨length, hlength, rfl⟩ := exists_length_of_exec_encode hencode hout
    rw [length_frameBytes] at hk
    rw [exec_decode_take_frameBytes _ _ t hlength.symm hk] at hdecode
    cases hdecode
    rfl
  · exact exec_decode_of_raised s (decodeBuffer_truncated command l0 l1 rest (by omega))

end Sys2Proof.Proofs.FrameCodec
end

section
/-! SUPPORT. Where a buffer shows its length field and its checksum, and DECODE's conditions with what a buffer must be for each
(41_framecodec.md R62, R63). -/

namespace Sys2Proof.Machine

/-- `L`: the number that the bytes at offsets 1 and 2 make (30_encoding.md R37). -/
def shownLength (buffer : List Byte) : Half := fromLe16 (buffer.getD 1 0#8) (buffer.getD 2 0#8)

/-- The number that the last two bytes make, which in a frame are its checksum field (30_encoding.md R38). -/
def shownChecksum (buffer : List Byte) : Half :=
  fromLe16 (buffer.getD (buffer.length - 2) 0#8) (buffer.getD (buffer.length - 1) 0#8)

@[simp] theorem shownLength_cons (command l0 l1 : Byte) (rest : List Byte) :
    shownLength (command :: l0 :: l1 :: rest) = fromLe16 l0 l1 := rfl

@[simp] theorem shownLength_frameBytes (command : Byte) (length : Half) (payload : List Byte) (checksum : Half) :
    shownLength (frameBytes command length payload checksum) = length := by
  rw [frameBytes_eq, shownLength_cons, fromLe16_lo8_hi8]

theorem shownChecksum_append (front : List Byte) (c0 c1 : Byte) : shownChecksum (front ++ [c0, c1]) = fromLe16 c0 c1 := by
  simp [shownChecksum]

@[simp] theorem shownChecksum_frameBytes (command : Byte) (length : Half) (payload : List Byte) (checksum : Half) :
    shownChecksum (frameBytes command length payload checksum) = checksum := by
  rw [frameBytes, ← List.append_assoc, le16, shownChecksum_append, fromLe16_lo8_hi8]

/-- All but the last two bytes of a frame are its header and its payload. -/
@[simp] theorem take_frameBytes (command : Byte) (length : Half) (payload : List Byte) (checksum : Half) :
    (frameBytes command length payload checksum).take ((frameBytes command length payload checksum).length - 2) =
      header command length ++ payload := by
  rw [length_frameBytes, frameBytes, ← List.append_assoc]
  refine List.take_left' ?_
  rw [List.length_append, length_header]
  omega

/-- All that DECODE can do, with what the buffer must be for it; the four guards exclude each other (41_framecodec.md R62). -/
theorem exec_decode_guards {buffer : List Byte} {s t : State} (hexec : exec (.decode buffer) s = .next t) :
    (t.outputs = { status := some .truncated } ∧
      (buffer.length < 5 ∨ (5 ≤ buffer.length ∧ buffer.length < 5 + (shownLength buffer).toNat))) ∨
    (t.outputs = { status := some .malformed } ∧ 5 ≤ buffer.length ∧ 5 + (shownLength buffer).toNat < buffer.length) ∨
    (t.outputs = { status := some .checksumMismatch } ∧ buffer.length = 5 + (shownLength buffer).toNat ∧
      csum16 (buffer.take (buffer.length - 2)) ≠ shownChecksum buffer) ∨
    (t.outputs.status = some .ok ∧ buffer.length = 5 + (shownLength buffer).toNat ∧
      csum16 (buffer.take (buffer.length - 2)) = shownChecksum buffer) := by
  rcases buffer_cases buffer with
    hshort | ⟨command, l0, l1, rest, rfl, hless⟩ | ⟨command, l0, l1, rest, rfl, hmore⟩ |
    ⟨command, length, payload, checksum, rfl, hlength⟩
  · rw [exec_decode_of_raised s (decodeBuffer_short _ hshort)] at hexec
    cases hexec
    exact .inl ⟨rfl, .inl hshort⟩
  · rw [exec_decode_of_raised s (decodeBuffer_truncated _ _ _ _ hless)] at hexec
    cases hexec
    refine .inl ⟨rfl, ?_⟩
    rw [shownLength_cons]
    simp only [List.length_cons]
    omega
  · rw [exec_decode_of_raised s (decodeBuffer_malformed _ _ _ _ hmore)] at hexec
    cases hexec
    refine .inr (.inl ⟨rfl, ?_⟩)
    rw [shownLength_cons]
    simp only [List.length_cons]
    omega
  · have hsize : (frameBytes command length payload checksum).length = 5 + length.toNat := by rw [length_frameBytes, hlength]
    rw [take_frameBytes, shownLength_frameBytes, shownChecksum_frameBytes]
    by_cases hchecksum : csum16 (header command length ++ payload) = checksum
    · rw [exec_decode_frameBytes ⟨command, length, payload, checksum⟩ s ⟨hlength.symm, hchecksum.symm⟩] at hexec
      cases hexec
      exact .inr (.inr (.inr ⟨rfl, hsize, hchecksum⟩))
    · rw [exec_decode_frameBytes_mismatch s hlength hchecksum] at hexec
      cases hexec
      exact .inr (.inr (.inl ⟨rfl, hsize, hchecksum⟩))

end Sys2Proof.Machine
end

section
/-! The proofs of the obligations of 60_exceptions.md. -/

namespace Sys2Proof.Proofs.Exceptions
open Sys2Proof.Machine

/-- Settles O26: ENCODE answers one way above 65535 bytes and another way up to there. -/
theorem payloadTooLargeExactlyAbove65535 : Obligations.PayloadTooLargeExactlyAbove65535 := by
  intro cmdIn input s t hexec
  rcases Nat.lt_or_ge 65535 input.length with hlarge | hfits
  · rw [exec_encode_large _ _ _ hlarge] at hexec
    cases hexec
    exact ⟨iff_of_true rfl hlarge, fun _ => ⟨rfl, rfl⟩⟩
  · rw [exec_encode_fits _ _ _ hfits] at hexec
    cases hexec
    exact ⟨iff_of_false (by simp) (by omega), fun hlarge => absurd hlarge (by omega)⟩

/-- Settles O30: the other three ends of DECODE show another status, and their guards ask for at least `5 + L` bytes. -/
theorem truncatedExactlyWhenTooShort : Obligations.TruncatedExactlyWhenTooShort := by
  intro buffer s t hexec
  rw [← shownLength]
  rcases exec_decode_guards hexec with ⟨hout, hguard⟩ | ⟨hout, hguard⟩ | ⟨hout, hguard, -⟩ | ⟨hout, hguard, -⟩
  · exact ⟨iff_of_true hout hguard, fun _ => hout⟩
  · exact ⟨iff_of_false (by simp [hout]) (by omega), by simp [hout]⟩
  · exact ⟨iff_of_false (by simp [hout]) (by omega), by simp [hout]⟩
  · exact ⟨iff_of_false (fun hsame => by simp [hsame] at hout) (by omega), by simp [hout]⟩

/-- Settles O31: the first two ends of DECODE are those of another size, the last is that of the received checksum. -/
theorem mismatchExactlyWhenSizedAndDifferent : Obligations.MismatchExactlyWhenSizedAndDifferent := by
  intro buffer s t hexec
  rw [← shownLength, ← shownChecksum]
  rcases exec_decode_guards hexec with ⟨hout, hguard⟩ | ⟨hout, hguard⟩ | ⟨hout, hguard⟩ | ⟨hout, -, hchecksum⟩
  · exact ⟨iff_of_false (by simp [hout]) (by omega), by simp [hout]⟩
  · exact ⟨iff_of_false (by simp [hout]) (by omega), by simp [hout]⟩
  · exact ⟨iff_of_true hout hguard, fun _ => hout⟩
  · exact ⟨iff_of_false (fun hsame => by simp [hsame] at hout) fun hguard => hguard.2 hchecksum, by simp [hout]⟩

end Sys2Proof.Proofs.Exceptions
end

section
/-! SUPPORT. What the decoder answers to a frame, by the buffer's size and its command byte (30_encoding.md R40, R41, 41_framecodec.md
R62), and what the encoder makes of an instruction. -/

namespace Sys2Proof.Machine

/-- A byte that names a command is the value of one of the table's rows (42_commands.md R75). -/
theorem mem_of_classifyBy_ne {table : CommandTable} {b : Byte} (hknown : classifyBy table b ≠ .unknownCommand) :
    (b, classifyBy table b) ∈ table := by
  induction table with
  | nil => exact absurd rfl hknown
  | cons row rows ih =>
    obtain ⟨value, command⟩ := row
    rw [classifyBy] at hknown ⊢
    split at hknown
    · next hb => rw [if_pos hb, hb]; exact List.mem_cons_self
    · next hb => rw [if_neg hb]; exact List.mem_cons_of_mem _ (ih hknown)

/-- A value of no row is unknown (30_encoding.md R41). -/
theorem classifyBy_of_notMem {table : CommandTable} {b : Byte} (hb : b ∉ table.map Prod.fst) :
    classifyBy table b = .unknownCommand := by
  by_contra hknown
  exact hb (List.mem_map_of_mem (f := Prod.fst) (mem_of_classifyBy_ne hknown))

/-- In a table without repeats a row's value names the row's command (92_eei_decisions.md D19). -/
theorem classifyBy_of_mem {table : CommandTable} {value : Byte} {command : Command} (hnodup : (table.map Prod.fst).Nodup)
    (hmem : (value, command) ∈ table) : classifyBy table value = command := by
  induction table with
  | nil => exact absurd hmem List.not_mem_nil
  | cons row rows ih =>
    obtain ⟨hfresh, hrows⟩ := List.nodup_cons.mp hnodup
    rcases List.mem_cons.mp hmem with rfl | hmem
    · rw [classifyBy, if_pos rfl]
    · have hne : value ≠ row.1 := fun hsame => hfresh (hsame ▸ List.mem_map_of_mem (f := Prod.fst) hmem)
      rw [classifyBy, if_neg hne, ih hrows hmem]

/-- The bytes that the default table does not know are those of none of its rows (30_encoding.md R41). -/
theorem classifyByte_eq_unknown_iff (b : Byte) : classifyByte b = .unknownCommand ↔ b ∉ commandTable.map Prod.fst := by
  refine ⟨fun hunknown hmem => ?_, classifyBy_of_notMem⟩
  obtain ⟨⟨value, command⟩, hrow, rfl⟩ := List.mem_map.mp hmem
  have hnamed : classifyByte value = command := classifyBy_of_mem (by decide) hrow
  have hrows : ∀ row ∈ commandTable, row.2 ≠ .unknownCommand := by decide
  exact hrows _ hrow (hnamed.symm.trans hunknown)

/-- The decoder on fewer bytes than `5 + L`. -/
theorem decodeFrame_truncated (table : CommandTable) (command l0 l1 : Byte) (rest : List Byte)
    (hless : rest.length < (fromLe16 l0 l1).toNat + 2) :
    decodeFrame table (command :: l0 :: l1 :: rest) = .reject .truncated := by
  rw [decodeFrame, if_pos hless]

/-- The decoder on fewer than five bytes, which a frame without payload has. -/
theorem decodeFrame_short (table : CommandTable) (bytes : List Byte) (hshort : bytes.length < 5) :
    decodeFrame table bytes = .reject .truncated := by
  match bytes with
  | [] => rfl
  | [_] => rfl
  | [_, _] => rfl
  | command :: l0 :: l1 :: rest =>
    simp only [List.length_cons] at hshort
    exact decodeFrame_truncated table command l0 l1 rest (by omega)

/-- The decoder on more bytes than `5 + L`. -/
theorem decodeFrame_malformed (table : CommandTable) (command l0 l1 : Byte) (rest : List Byte)
    (hmore : (fromLe16 l0 l1).toNat + 2 < rest.length) :
    decodeFrame table (command :: l0 :: l1 :: rest) = .reject .malformed := by
  rw [decodeFrame, if_neg (by omega), if_pos hmore]

/-- The decoder on exactly `5 + L` bytes: the command byte selects the row, and the operands are the frame's fields. -/
theorem decodeFrame_frameBytes (table : CommandTable) (command : Byte) {length : Half} {payload : List Byte} (checksum : Half)
    (hlength : payload.length = length.toNat) :
    decodeFrame table (frameBytes command length payload checksum) =
      commandInstr (classifyBy table command) length payload checksum := by
  have hsize : (payload ++ [lo8 checksum, hi8 checksum]).length = length.toNat + 2 := by simp [hlength]
  rw [frameBytes_eq, decodeFrame, fromLe16_lo8_hi8, if_neg (by omega), if_neg (by omega), List.drop_left' hlength,
    List.take_left' hlength]
  simp only [fromLe16_lo8_hi8]

/-- All that the decoder can answer to the bytes of a frame. -/
theorem decodeFrame_cases (table : CommandTable) (bytes : List Byte) :
    decodeFrame table bytes = .reject .truncated ∨ decodeFrame table bytes = .reject .malformed ∨
    (∃ command length payload checksum, bytes = frameBytes command length payload checksum ∧ payload.length = length.toNat ∧
      decodeFrame table bytes = commandInstr (classifyBy table command) length payload checksum) := by
  rcases buffer_cases bytes with
    hshort | ⟨command, l0, l1, rest, rfl, hless⟩ | ⟨command, l0, l1, rest, rfl, hmore⟩ |
    ⟨command, length, payload, checksum, rfl, hlength⟩
  · exact .inl (decodeFrame_short table bytes hshort)
  · exact .inl (decodeFrame_truncated table command l0 l1 rest hless)
  · exact .inr (.inl (decodeFrame_malformed table command l0 l1 rest hmore))
  · exact .inr (.inr ⟨command, length, payload, checksum, rfl, hlength, decodeFrame_frameBytes table command checksum hlength⟩)

/-- A command is no row of the opcode table when it is `UnknownCommand`, and only then. -/
theorem commandInstr_eq_reject_iff (command : Command) (length : Half) (payload : List Byte) (checksum : Half) :
    commandInstr command length payload checksum = .reject .unknownCommand ↔ command = .unknownCommand := by
  cases command <;> simp [commandInstr]

/-- A frame of the right size is no instruction exactly when the table does not know its command byte (30_encoding.md R41). -/
theorem decodeFrame_frameBytes_eq_unknown_iff (table : CommandTable) (command : Byte) {length : Half} {payload : List Byte}
    (checksum : Half) (hlength : payload.length = length.toNat) :
    decodeFrame table (frameBytes command length payload checksum) = .reject .unknownCommand ↔
      classifyBy table command = .unknownCommand := by
  rw [decodeFrame_frameBytes table command checksum hlength, commandInstr_eq_reject_iff]

/-- A command that is no row is rejected as unknown and for no other reason. -/
theorem reject_of_commandInstr {command : Command} {length : Half} {payload : List Byte} {checksum : Half} {r : Reject}
    (hinstr : commandInstr command length payload checksum = .reject r) : r = .unknownCommand := by
  cases command <;> cases hinstr
  rfl

/-- Why bytes presented as a frame can be no instruction. -/
theorem decodeFrame_reject {table : CommandTable} {bytes : List Byte} {r : Reject} (hdecode : decodeFrame table bytes = .reject r) :
    r = .truncated ∨ r = .malformed ∨ r = .unknownCommand := by
  rcases decodeFrame_cases table bytes with
    htruncated | hmalformed | ⟨command, length, payload, checksum, -, -, hinstr⟩
  · exact .inl (Decoded.reject.inj (hdecode.symm.trans htruncated))
  · exact .inr (.inl (Decoded.reject.inj (hdecode.symm.trans hmalformed)))
  · rw [hinstr] at hdecode
    exact .inr (.inr (reject_of_commandInstr hdecode))

/-- Each row of the default table is an instruction, encoded as the frame with the row's value in front. -/
theorem exists_instr_of_row {value : Byte} {command : Command} (hrow : (value, command) ∈ commandTable) (length : Half)
    (payload : List Byte) (checksum : Half) :
    ∃ i, commandInstr command length payload checksum = .ok i ∧
      encode i = .frame (frameBytes value length payload checksum) ∧ i.wellFormed = payloadFits length payload := by
  simp only [commandTable, List.mem_cons, Prod.mk.injEq, List.not_mem_nil, or_false] at hrow
  rcases hrow with ⟨rfl, rfl⟩ | ⟨rfl, rfl⟩ | ⟨rfl, rfl⟩ | ⟨rfl, rfl⟩ | ⟨rfl, rfl⟩ | ⟨rfl, rfl⟩ | ⟨rfl, rfl⟩ | ⟨rfl, rfl⟩ |
    ⟨rfl, rfl⟩ | ⟨rfl, rfl⟩ | ⟨rfl, rfl⟩ | ⟨rfl, rfl⟩ | ⟨rfl, rfl⟩ <;> exact ⟨_, rfl, rfl, rfl⟩

/-- An instruction is one of the five operations, which its `op` code selects, or a command, which its byte selects. -/
theorem encode_cases (i : Instr) :
    (∃ op cmdIn input, encode i = .transaction op cmdIn input ∧ decodeOp op cmdIn input = .ok i) ∨
    (∃ value length payload checksum, encode i = .frame (frameBytes value length payload checksum) ∧
      i.wellFormed = payloadFits length payload ∧ commandInstr (classifyByte value) length payload checksum = .ok i) := by
  cases i with
  | csum16 _ | validate _ | encode _ _ | decode _ | classify _ => exact .inl ⟨_, _, _, rfl, rfl⟩
  | requestFileName _ _ _ | replyFileName _ _ _ | probeRequest _ _ _ | probeResponse _ _ _ | capabilityNego _ _ _
  | capabilityAck _ _ _ | switchBaudrate _ _ _ | switchAck _ _ _ | connectionReady _ _ _ | requestFileSize _ _ _
  | replyFileSize _ _ _ | requestData _ _ _ | sendData _ _ _ => exact .inr ⟨_, _, _, _, rfl, rfl, rfl⟩

theorem payloadFits_iff (length : Half) (payload : List Byte) :
    payloadFits length payload = true ↔ payload.length = length.toNat := by
  rw [payloadFits, beq_iff_eq]

/-- Bytes that decode to an instruction are the encoding of it, and it is well formed. -/
theorem encode_of_decodeFrame {bytes : List Byte} {i : Instr} (hdecode : decodeFrame commandTable bytes = .ok i) :
    i.wellFormed = true ∧ encode i = .frame bytes := by
  rcases decodeFrame_cases commandTable bytes with
    htruncated | hmalformed | ⟨command, length, payload, checksum, rfl, hlength, hinstr⟩
  · rw [htruncated] at hdecode
    cases hdecode
  · rw [hmalformed] at hdecode
    cases hdecode
  · rw [hinstr] at hdecode
    have hknown : classifyBy commandTable command ≠ .unknownCommand := fun hunknown => by
      rw [(commandInstr_eq_reject_iff ..).mpr hunknown] at hdecode
      cases hdecode
    obtain ⟨j, hj, hencode, hfits⟩ := exists_instr_of_row (mem_of_classifyBy_ne hknown) length payload checksum
    rw [hj] at hdecode
    cases hdecode
    exact ⟨hfits.trans ((payloadFits_iff ..).mpr hlength), hencode⟩

end Sys2Proof.Machine
end

section
/-! The proofs of the obligations of 30_encoding.md on the decoder and the encoder. -/

namespace Sys2Proof.Proofs.Decoder
open Sys2Proof.Machine

/-- Settles O3: the encoding of an operation is its `op` code with the ports it reads, that of a command a frame of the right size, whose
command byte selects the row. -/
theorem decodeOfEncodeIsTheInstruction : Obligations.DecodeOfEncodeIsTheInstruction := by
  intro i hwf
  rcases encode_cases i with ⟨op, cmdIn, input, hencode, hop⟩ | ⟨value, length, payload, checksum, hencode, hfits, hinstr⟩
  · rw [hencode]
    exact hop
  · have hlength : payload.length = length.toNat := (payloadFits_iff ..).mp (hfits.symm.trans hwf)
    rw [hencode]
    exact (decodeFrame_frameBytes commandTable value checksum hlength).trans hinstr

/-- Settles O4: only a frame of the right size with the value of a row is an instruction, and that row encodes to it. -/
theorem decodedFrameEncodesToItsBytes : Obligations.DecodedFrameEncodesToItsBytes :=
  fun _ _ hdecode => encode_of_decodeFrame hdecode

/-- Settles O5: at the right size the row alone can be missing, and it is missing for the bytes of no row of the table. -/
theorem unknownCommandsAreRejectedByName : Obligations.UnknownCommandsAreRejectedByName := by
  intro command length payload checksum hlength
  exact (decodeFrame_frameBytes_eq_unknown_iff commandTable command checksum hlength).trans (classifyByte_eq_unknown_iff command)

/-- Settles O1: the decoder computes each of these closed cases. -/
theorem tableWordsDecodeToTheirRows : Obligations.TableWordsDecodeToTheirRows := by
  unfold Obligations.TableWordsDecodeToTheirRows
  decide

/-- Settles O2: `decodeOp` looks at the code alone. -/
theorem operationCodesSelectOperations : Obligations.OperationCodesSelectOperations :=
  fun _ _ => ⟨rfl, rfl, rfl, rfl, rfl, rfl, rfl, rfl⟩

end Sys2Proof.Proofs.Decoder
end

section
/-! SUPPORT. The machine is the block (10_state.md R10): what each procedure replies, said once, and that a step puts the block's reply to the
request presented on the output ports. -/

namespace Sys2Proof.Machine

/-- A procedure's reply to one transaction stands on the ports whatever stood there before. -/
theorem onPorts_congr (reply : Reply) {s₁ s₂ : State} (hrequest : s₁.request = s₂.request) :
    onPorts reply s₁ = onPorts reply s₂ := by
  cases reply <;> simp [onPorts, hrequest]

/-- The meaning of an instruction is the block's reply to its encoding. -/
theorem exec_eq_onPorts_transact (i : Instr) (s : State) : exec i s = onPorts (transact commandTable (encode i)) s := by
  cases i <;> rfl

/-- The operation codes of 30_encoding.md R44: five operations, and the reserved ones. -/
theorem op_cases (op : BitVec 3) : op = 0#3 ∨ op = 1#3 ∨ op = 2#3 ∨ op = 3#3 ∨ op = 4#3 ∨ 5 ≤ op.toNat := by
  revert op
  decide

/-- A reserved `op` is `ILLEGAL_OP` (60_exceptions.md R101). -/
theorem transact_reserved (table : CommandTable) {op : BitVec 3} (cmdIn : Byte) (input : List Byte) (hop : 5 ≤ op.toNat) :
    transact table (.transaction op cmdIn input) = report .illegalOp := by
  obtain ⟨n, hn⟩ := Nat.exists_eq_add_of_le' hop
  simp only [transact, hn]

theorem decodeOp_reserved {op : BitVec 3} (cmdIn : Byte) (input : List Byte) (hop : 5 ≤ op.toNat) :
    decodeOp op cmdIn input = .reject .reservedOp := by
  obtain ⟨n, hn⟩ := Nat.exists_eq_add_of_le' hop
  simp only [decodeOp, hn]

/-- A step runs the instruction that is presented. -/
theorem step_of_decode_ok {s : State} {i : Instr} (hdecode : decodeRequest s.request = .ok i) : step s = exec i s := by
  rw [step, hdecode]

/-- A step answers what is no instruction by the reason. -/
theorem step_of_decode_reject {s : State} {r : Reject} (hdecode : decodeRequest s.request = .reject r) :
    step s = answerRejected r s := by
  rw [step, hdecode]

theorem step_transaction (op : BitVec 3) (cmdIn : Byte) (input : List Byte) (outputs : Outputs) :
    step ⟨.transaction op cmdIn input, outputs⟩ =
      onPorts (transact commandTable (.transaction op cmdIn input)) ⟨.transaction op cmdIn input, outputs⟩ := by
  rcases op_cases op with rfl | rfl | rfl | rfl | rfl | hop
  · rfl
  · rfl
  · rfl
  · rfl
  · rfl
  · rw [step_of_decode_reject (s := ⟨.transaction op cmdIn input, outputs⟩) (decodeOp_reserved cmdIn input hop),
      transact_reserved _ _ _ hop]
    rfl

/-- Whether its bytes are an instruction or not, a frame presented is received. -/
theorem step_frame (bytes : List Byte) (outputs : Outputs) :
    step ⟨.frame bytes, outputs⟩ = receive bytes ⟨.frame bytes, outputs⟩ := by
  cases hdecode : decodeFrame commandTable bytes with
  | ok i =>
    obtain ⟨-, hencode⟩ := encode_of_decodeFrame hdecode
    rw [step_of_decode_ok (s := ⟨.frame bytes, outputs⟩) hdecode, exec_eq_onPorts_transact, hencode]
    rfl
  | reject r =>
    rw [step_of_decode_reject (s := ⟨.frame bytes, outputs⟩) hdecode]
    rcases decodeFrame_reject hdecode with rfl | rfl | rfl <;> rfl

/-- Every step is the block's reply to what is presented, put on the output ports. -/
theorem step_eq_onPorts_transact (s : State) : step s = onPorts (transact commandTable s.request) s := by
  obtain ⟨request, outputs⟩ := s
  cases request with
  | idle => rfl
  | transaction op cmdIn input => exact step_transaction op cmdIn input outputs
  | frame bytes => exact step_frame bytes outputs

/-- All that a step can do: leave the request and put the outputs that the block replies on the ports. -/
theorem step_eq_next_iff {s t : State} :
    step s = .next t ↔ ∃ o, transact commandTable s.request = .next o ∧ t = { s with outputs := o } := by
  rw [step_eq_onPorts_transact, onPorts_eq_next]

/-- VALIDATE always answers, since it reads inside the buffer (40_checksum.md R53, 20_memory.md R21). -/
theorem validateReply_eq_deliver (input : List Byte) : ∃ v, validateReply input = deliver { validOut := some v } := by
  rcases Nat.lt_or_ge input.length 5 with hshort | hlong
  · exact ⟨false, by rw [validateReply, validateBuffer_short _ hshort]⟩
  · obtain ⟨front, c0, c1, rfl, hfront⟩ := split_last_two (input.length - 2) input (by omega)
    exact ⟨_, by rw [validateReply, validateBuffer_append _ _ _ (by omega)]⟩

theorem encodeReply_fits (cmdIn : Byte) {input : List Byte} (hfits : input.length ≤ 65535) :
    encodeReply cmdIn input = deliver { out := some (wireFrame cmdIn input) } := by
  rw [encodeReply, encodeFrame_fits _ _ hfits]

theorem encodeReply_large (cmdIn : Byte) {input : List Byte} (hlarge : 65535 < input.length) :
    encodeReply cmdIn input = report .payloadTooLarge := by
  rw [encodeReply, encodeFrame_large _ _ hlarge]

/-- All that DECODE, and so the receipt of a frame, can reply: the same condition, or the same valid Frame record of the bytes, which the
receipt names by its command byte (41_framecodec.md R62, log entry 2). -/
theorem decodeReply_receiveReply_cases (table : CommandTable) (bytes : List Byte) :
    (∃ st, st ≠ .ok ∧ decodeReply bytes = report st ∧ receiveReply table bytes = report st) ∨
    (∃ f, Safety.FrameValid f ∧ bytes = frameBytes f.command f.length f.payload f.checksum ∧
      decodeReply bytes = deliver (frameOutputs f) ∧
      receiveReply table bytes = deliver { frameOutputs f with kind := some (classifyBy table f.command) }) := by
  rcases decodeBuffer_cases bytes with ⟨st, hdecode, hst⟩ | ⟨f, hdecode, hvalid, hbytes⟩
  · exact .inl ⟨st, hst, by rw [decodeReply, hdecode], by rw [receiveReply, hdecode]⟩
  · exact .inr ⟨f, hvalid, hbytes, by rw [decodeReply, hdecode], by rw [receiveReply, hdecode]⟩

/-- The receipt of a frame is DECODE of its bytes and then, on `OK`, CLASSIFY of the command byte (log entry 2). -/
theorem receiveReply_of_decodeReply (table : CommandTable) {bytes : List Byte} {o : Outputs}
    (hdecode : decodeReply bytes = .next o) :
    receiveReply table bytes = .next { o with kind := o.cmdOut.map (classifyBy table) } := by
  rcases decodeReply_receiveReply_cases table bytes with ⟨st, -, hd, hr⟩ | ⟨f, -, -, hd, hr⟩
  · rw [hd] at hdecode
    cases hdecode
    exact hr
  · rw [hd] at hdecode
    cases hdecode
    exact hr

/-- A step that receives a frame shows what DECODE of its bytes shows, and the command named. -/
theorem stepWith_frame_of_exec_decode (table : CommandTable) {bytes : List Byte} {s t : State}
    (hexec : exec (.decode bytes) s = .next t) :
    stepWith table (present (.frame bytes) s) =
      .next { request := .frame bytes, outputs := { t.outputs with kind := t.outputs.cmdOut.map (classifyBy table) } } := by
  obtain ⟨o, hdecode, rfl⟩ := onPorts_eq_next.mp hexec
  exact onPorts_eq_next.mpr ⟨_, receiveReply_of_decodeReply table hdecode, rfl⟩

end Sys2Proof.Machine
end

section
/-! SUPPORT. All that the block can reply to a transaction, said once; which ports that defines, and that the values on them obey their
laws (10_state.md R16, R17, 60_exceptions.md R105). -/

namespace Sys2Proof.Machine
open Sys2Proof.Safety

/-- All that a transaction can end with: `OK` and the ports of its operation, or a condition alone, which CSUM16, VALIDATE and CLASSIFY
never raise (10_state.md R16). -/
theorem transact_transaction_cases (table : CommandTable) (op : BitVec 3) (cmdIn : Byte) (input : List Byte) :
    (op = 0#3 ∧ transact table (.transaction op cmdIn input) = deliver { csumOut := some (csum16 input) }) ∨
    (op = 1#3 ∧ ∃ v, transact table (.transaction op cmdIn input) = deliver { validOut := some v }) ∨
    (op = 2#3 ∧ input.length ≤ 65535 ∧
      transact table (.transaction op cmdIn input) = deliver { out := some (wireFrame cmdIn input) }) ∨
    (op = 3#3 ∧ ∃ f, FrameValid f ∧ input = frameBytes f.command f.length f.payload f.checksum ∧
      transact table (.transaction op cmdIn input) = deliver (frameOutputs f)) ∨
    (op = 4#3 ∧ transact table (.transaction op cmdIn input) = deliver { kind := some (classifyBy table cmdIn) }) ∨
    (∃ st, st ≠ .ok ∧ (op ≠ 0#3 ∧ op ≠ 1#3 ∧ op ≠ 4#3) ∧ transact table (.transaction op cmdIn input) = report st) := by
  rcases op_cases op with rfl | rfl | rfl | rfl | rfl | hop
  · exact .inl ⟨rfl, rfl⟩
  · exact .inr (.inl ⟨rfl, validateReply_eq_deliver input⟩)
  · rcases Nat.lt_or_ge 65535 input.length with hlarge | hfits
    · exact .inr (.inr (.inr (.inr (.inr ⟨_, by decide, by decide, encodeReply_large cmdIn hlarge⟩))))
    · exact .inr (.inr (.inl ⟨rfl, hfits, encodeReply_fits cmdIn hfits⟩))
  · rcases decodeReply_receiveReply_cases table input with ⟨st, hst, hreply, -⟩ | ⟨f, hvalid, hbytes, hreply, -⟩
    · exact .inr (.inr (.inr (.inr (.inr ⟨st, hst, by decide, hreply⟩))))
    · exact .inr (.inr (.inr (.inl ⟨rfl, f, hvalid, hbytes, hreply⟩)))
  · exact .inr (.inr (.inr (.inr (.inl ⟨rfl, rfl⟩))))
  · have hreserved : op ≠ 0#3 ∧ op ≠ 1#3 ∧ op ≠ 4#3 := by
      refine ⟨?_, ?_, ?_⟩ <;> rintro rfl <;> exact absurd hop (by decide)
    exact .inr (.inr (.inr (.inr (.inr ⟨_, by decide, hreserved, transact_reserved table cmdIn input hop⟩))))

/-- Whatever is presented and whatever the command table, the block replies with outputs: it reads inside its buffer, writes in order and
refuses nothing (20_memory.md R21). -/
theorem exists_transact_eq_next (table : CommandTable) (request : Request) : ∃ o, transact table request = .next o := by
  cases request with
  | idle => exact ⟨_, rfl⟩
  | transaction op cmdIn input =>
    rcases transact_transaction_cases table op cmdIn input with
      ⟨-, hreply⟩ | ⟨-, v, hreply⟩ | ⟨-, -, hreply⟩ | ⟨-, f, -, -, hreply⟩ | ⟨-, hreply⟩ | ⟨st, -, -, hreply⟩ <;>
      exact ⟨_, hreply⟩
  | frame bytes =>
    rcases decodeReply_receiveReply_cases table bytes with ⟨st, -, -, hreply⟩ | ⟨f, -, -, -, hreply⟩ <;> exact ⟨_, hreply⟩

/-- The block's outputs show a legal pattern, whatever is presented. -/
theorem outputsLegal_of_transact {request : Request} {o : Outputs} (hreply : transact commandTable request = .next o) :
    OutputsLegal o := by
  cases request with
  | idle => cases hreply; exact .absent
  | transaction op cmdIn input =>
    rcases transact_transaction_cases commandTable op cmdIn input with
      ⟨-, h⟩ | ⟨-, v, h⟩ | ⟨-, hfits, h⟩ | ⟨-, f, hvalid, -, h⟩ | ⟨-, h⟩ | ⟨st, hst, -, h⟩ <;> cases h.symm.trans hreply
    · exact .checksum _
    · exact .verdict v
    · exact .encoded cmdIn input hfits
    · exact .decoded f hvalid
    · exact .named _
    · exact .condition st hst
  | frame bytes =>
    rcases decodeReply_receiveReply_cases commandTable bytes with ⟨st, hst, -, h⟩ | ⟨f, hvalid, -, -, h⟩ <;>
      cases h.symm.trans hreply
    · exact .condition st hst
    · exact .received f hvalid

/-- ENCODE ends with `OK` for a payload that fits, and with the wire frame. -/
theorem encodeReply_of_ok {cmdIn : Byte} {input : List Byte} {o : Outputs} (hreply : encodeReply cmdIn input = .next o)
    (hok : o.status = some .ok) : input.length ≤ 65535 ∧ o.out = some (wireFrame cmdIn input) := by
  rcases Nat.lt_or_ge 65535 input.length with hlarge | hfits
  · cases (encodeReply_large cmdIn hlarge).symm.trans hreply
    cases hok
  · cases (encodeReply_fits cmdIn hfits).symm.trans hreply
    exact ⟨hfits, rfl⟩

/-- DECODE ends with `OK` for the bytes of a valid Frame record, and with that record (10_state.md R17). -/
theorem decodeReply_of_ok {input : List Byte} {o : Outputs} (hreply : decodeReply input = .next o) (hok : o.status = some .ok) :
    ∃ f, FrameValid f ∧ input = frameBytes f.command f.length f.payload f.checksum ∧
      o = { frameOutputs f with status := some .ok } := by
  rcases decodeReply_receiveReply_cases commandTable input with ⟨st, hst, h, -⟩ | ⟨f, hvalid, hbytes, h, -⟩
  · cases h.symm.trans hreply
    exact absurd (Option.some.inj hok) hst
  · cases h.symm.trans hreply
    exact ⟨f, hvalid, hbytes, rfl⟩

/-- A legal pattern with a condition on `status` is that condition alone (60_exceptions.md R105). -/
theorem onlyReports_of_legal {o : Outputs} {st : Status} (hlegal : OutputsLegal o) (hstatus : o.status = some st) (hst : st ≠ .ok) :
    OnlyReports st o := by
  cases hlegal with
  | absent => cases hstatus
  | checksum | verdict | encoded | decoded | received | named => cases hstatus; exact absurd rfl hst
  | condition => cases hstatus; rfl

theorem portsDefined_csum16 (c : Half) : PortsDefined 0#3 { status := some .ok, csumOut := some c } := by
  constructor <;> simp [nOut, knownOut, kindOut]

theorem portsDefined_validate (v : Bool) : PortsDefined 1#3 { status := some .ok, validOut := some v } := by
  constructor <;> simp [nOut, knownOut, kindOut]

theorem portsDefined_encode (frame : List Byte) : PortsDefined 2#3 { status := some .ok, out := some frame } := by
  constructor <;> simp [nOut, knownOut, kindOut]

theorem portsDefined_decode (f : Frame) : PortsDefined 3#3 { frameOutputs f with status := some .ok } := by
  constructor <;> simp [nOut, knownOut, kindOut]

theorem portsDefined_classify (c : Command) : PortsDefined 4#3 { status := some .ok, kind := some c } := by
  constructor <;> simp [nOut, knownOut, kindOut]

/-- A transaction defines the ports that 10_state.md R16 says for its operation and the status it ended with. -/
theorem portsDefined_of_transact {table : CommandTable} {op : BitVec 3} {cmdIn : Byte} {input : List Byte} {o : Outputs}
    (hreply : transact table (.transaction op cmdIn input) = .next o) : PortsDefined op o := by
  rcases transact_transaction_cases table op cmdIn input with
    ⟨rfl, h⟩ | ⟨rfl, v, h⟩ | ⟨rfl, -, h⟩ | ⟨rfl, f, -, -, h⟩ | ⟨rfl, h⟩ | ⟨st, hst, ⟨h0, h1, h4⟩, h⟩ <;> cases h.symm.trans hreply
  · exact portsDefined_csum16 _
  · exact portsDefined_validate v
  · exact portsDefined_encode _
  · exact portsDefined_decode f
  · exact portsDefined_classify _
  · exact portsDefined_condition op st hst h0 h1 h4

/-- The receipt of a frame defines the ports of DECODE and, with `OK`, the command named (log entry 2). -/
theorem portsDefined_of_receiveReply {table : CommandTable} {bytes : List Byte} {o : Outputs}
    (hreply : receiveReply table bytes = .next o) :
    PortsDefined 3#3 { o with kind := none } ∧ (o.kind.isSome = true ↔ o.status = some .ok) := by
  rcases decodeReply_receiveReply_cases table bytes with ⟨st, hst, -, h⟩ | ⟨f, -, -, -, h⟩ <;> cases h.symm.trans hreply
  · exact ⟨portsDefined_condition 3#3 st hst (by decide) (by decide) (by decide), by simp [hst]⟩
  · exact ⟨portsDefined_decode f, by simp⟩

/-- Whatever is presented ends with a status (10_state.md R16, "always"). -/
theorem exists_status_of_transact {table : CommandTable} {request : Request} {o : Outputs} (hpresented : request ≠ .idle)
    (hreply : transact table request = .next o) : ∃ st, o.status = some st := by
  refine Option.isSome_iff_exists.mp ?_
  cases request with
  | idle => exact absurd rfl hpresented
  | transaction op cmdIn input => exact (portsDefined_of_transact hreply).always
  | frame bytes => exact (portsDefined_of_receiveReply hreply).1.always

/-- 6 and 7 are no status code (30_encoding.md R45). -/
theorem code_ne_six_seven (st : Status) : st.code ≠ 6#3 ∧ st.code ≠ 7#3 := by
  cases st <;> decide

/-- Another operation than CLASSIFY does not look at the command table (92_eei_decisions.md D19). -/
theorem transact_congr_table (table table' : CommandTable) {op : BitVec 3} (cmdIn : Byte) (input : List Byte) (hop : op ≠ 4#3) :
    transact table (.transaction op cmdIn input) = transact table' (.transaction op cmdIn input) := by
  rcases op_cases op with rfl | rfl | rfl | rfl | rfl | hreserved
  · rfl
  · rfl
  · rfl
  · rfl
  · exact absurd rfl hop
  · rw [transact_reserved _ _ _ hreserved, transact_reserved _ _ _ hreserved]

end Sys2Proof.Machine
end

section
/-! The proofs of the obligations on the step: what is presented decides it, and it leaves legal outputs (10_state.md R10, R16). -/

namespace Sys2Proof.Proofs.Step
open Sys2Proof.Machine Sys2Proof.Safety

/-- Settles O17: every reply of the block is legal, so the step does not even need the ports to have been legal before. -/
theorem stepKeepsOutputsLegal : Obligations.StepKeepsOutputsLegal := by
  intro s t _ hstep
  obtain ⟨o, hreply, rfl⟩ := step_eq_next_iff.mp hstep
  exact outputsLegal_of_transact hreply

/-- Settles O16: after reset no port has a value. -/
theorem resetOutputsLegal : Obligations.ResetOutputsLegal := .absent

/-- Settles O15: every port of the reset state is absent by its definition. -/
theorem resetLeavesNoOutputs : Obligations.ResetLeavesNoOutputs := ⟨rfl, rfl, rfl, rfl, rfl, rfl, rfl, rfl, rfl, rfl⟩

/-- Settles O6: what the decoder accepts is run and not answered by `answerRejected`. -/
theorem stepRunsDecodedInstruction : Obligations.StepRunsDecodedInstruction := fun _ _ => step_of_decode_ok

/-- Settles O7: the receipt of a frame is a step of the block, with the default table. -/
theorem receiptIsDecodeThenClassify : Obligations.ReceiptIsDecodeThenClassify := by
  intro bytes s t hexec
  rw [step_eq_onPorts_transact]
  exact stepWith_frame_of_exec_decode commandTable hexec

/-- Settles O8: the block's reply to nothing is no output. -/
theorem nothingPresentedLeavesNoOutputs : Obligations.NothingPresentedLeavesNoOutputs := fun _ => rfl

/-- Settles O9: a reserved `op` selects no procedure. -/
theorem reservedOpReportsIllegalOp : Obligations.ReservedOpReportsIllegalOp := by
  intro op cmdIn input s hop
  refine ⟨?_, rfl⟩
  rw [step_eq_onPorts_transact, present_request, transact_reserved _ _ _ hop]
  rfl

/-- Settles O10: the block always replies with outputs. -/
theorem everyStepGoesOn : Obligations.EveryStepGoesOn := by
  intro s
  obtain ⟨o, hreply⟩ := exists_transact_eq_next commandTable s.request
  exact ⟨_, step_eq_next_iff.mpr ⟨o, hreply, rfl⟩⟩

/-- Settles O11: an instruction puts a reply on the output ports, which leaves the request. -/
theorem instructionsLeaveTheInputsAlone : Obligations.InstructionsLeaveTheInputsAlone := by
  intro i s t hexec
  rw [exec_eq_onPorts_transact] at hexec
  obtain ⟨o, -, rfl⟩ := onPorts_eq_next.mp hexec
  exact ⟨rfl, fun _ _ => rfl, rfl⟩

/-- Settles O12: the block takes the request alone, and its reply replaces all that stood on the output ports. -/
theorem resultDependsOnInputsAlone : Obligations.ResultDependsOnInputsAlone := by
  intro s₁ s₂ hrequest
  rw [step_eq_onPorts_transact, step_eq_onPorts_transact, hrequest]
  exact onPorts_congr _ hrequest

/-- Settles O13: the request still stands after a step, so a second step is a step with the same inputs. -/
theorem repeatingATransactionChangesNothing : Obligations.RepeatingATransactionChangesNothing := by
  intro s t hstep
  have hrequest : t.request = s.request := by
    obtain ⟨o, -, rfl⟩ := step_eq_next_iff.mp hstep
    rfl
  exact (resultDependsOnInputsAlone t s hrequest).trans hstep

/-- Settles O14: the procedure of each of these operations does not take the port. -/
theorem ignoredPortsHaveNoEffect : Obligations.IgnoredPortsHaveNoEffect := by
  intro op cmdIn cmdIn' input input' s t
  refine ⟨fun hop hstep => ?_, fun hstep => ?_⟩
  · obtain ⟨o, hreply, rfl⟩ := step_eq_next_iff.mp hstep
    refine step_eq_next_iff.mpr ⟨o, ?_, rfl⟩
    rcases hop with rfl | rfl | rfl <;> exact hreply
  · obtain ⟨o, hreply, rfl⟩ := step_eq_next_iff.mp hstep
    exact step_eq_next_iff.mpr ⟨o, hreply, rfl⟩

/-- Settles O18: the status is there for every transaction and frame, and a legal pattern with a condition is the condition alone. -/
theorem everyTransactionEndsWithAStatus : Obligations.EveryTransactionEndsWithAStatus := by
  intro s t hpresented hstep
  obtain ⟨o, hreply, rfl⟩ := step_eq_next_iff.mp hstep
  obtain ⟨st, hstatus⟩ := exists_status_of_transact hpresented hreply
  obtain ⟨hsix, hseven⟩ := code_ne_six_seven st
  have hport : statusPort o = some st.code := by rw [statusPort, hstatus, Option.map_some]
  refine ⟨st, hstatus, ?_, ?_, onlyReports_of_legal (outputsLegal_of_transact hreply) hstatus⟩
  · rw [hport]
    exact fun hcode => hsix (Option.some.inj hcode)
  · rw [hport]
    exact fun hcode => hseven (Option.some.inj hcode)

/-- Settles O54: of the six ways a transaction can end, ENCODE's and DECODE's with `OK` carry the frame and the Frame record. -/
theorem outputPortsFollowTheOperation : Obligations.OutputPortsFollowTheOperation := by
  refine ⟨fun op cmdIn input s t hstep => ?_, fun bytes s t hstep => ?_⟩
  · obtain ⟨o, hreply, rfl⟩ := step_eq_next_iff.mp hstep
    rw [present_request] at hreply
    refine ⟨portsDefined_of_transact hreply, ?_, ?_⟩
    · rintro rfl hok
      obtain ⟨-, hout⟩ := encodeReply_of_ok hreply hok
      exact ⟨hout, by simp [nOut, hout]⟩
    · rintro rfl hok
      obtain ⟨f, hvalid, hbytes, hout⟩ := decodeReply_of_ok hreply hok
      exact ⟨f, hvalid, hbytes, hout, by simp [nOut, hout, hvalid.1]⟩
  · obtain ⟨o, hreply, rfl⟩ := step_eq_next_iff.mp hstep
    obtain ⟨hports, hkind⟩ := portsDefined_of_receiveReply hreply
    exact ⟨hports, by rw [knownOut, Option.isSome_map, hkind], by rw [kindOut, Option.isSome_map, hkind]⟩

/-- Settles O55: the block is total, and the step is the block's reply put on the output ports. -/
theorem stepIsTheStatelessBlock : Obligations.StepIsTheStatelessBlock := by
  refine ⟨fun table inputs => ?_, step_eq_onPorts_transact, step_eq_onPorts_transact, fun inputs s t hstep => ?_⟩
  · obtain ⟨o, hreply⟩ := exists_transact_eq_next table inputs
    exact ⟨o, congrArg (Prod.mk ()) hreply⟩
  · obtain ⟨o, hreply, rfl⟩ := step_eq_next_iff.mp hstep
    exact ⟨hreply, rfl⟩

/-- Settles O56: the table reaches CLASSIFY and the receipt's naming, and in the decoder the choice of the row. -/
theorem commandTableTouchesClassificationAlone : Obligations.CommandTableTouchesClassificationAlone := by
  intro table
  refine ⟨fun op cmdIn input s hop => ?_, fun s => ?_, fun bytes s t => stepWith_frame_of_exec_decode table,
    fun command length payload checksum => decodeFrame_frameBytes_eq_unknown_iff table command checksum⟩
  · rw [step_eq_onPorts_transact, present_request, transact_congr_table commandTable table cmdIn input hop]
    rfl
  · rw [step_eq_onPorts_transact]
    rfl

end Sys2Proof.Proofs.Step
end

section
/-! SUPPORT. The checksum as a number: of two parts, of equal bytes, of reordered bytes, against two received bytes; and what VALIDATE
answers (40_checksum.md R51 to R53). -/

namespace Sys2Proof.Machine
open Sys2Proof.Claims

@[simp] theorem byteSum_append (front back : List Byte) : byteSum (front ++ back) = byteSum front + byteSum back := by
  simp [byteSum]

theorem byteSum_replicate (n : Nat) (b : Byte) : byteSum (List.replicate n b) = n * b.toNat := by
  simp [byteSum]

/-- A byte is at most 255 (00_scope.md R6). -/
theorem byteSum_le (bytes : List Byte) : byteSum bytes ≤ 255 * bytes.length := by
  induction bytes with
  | nil => simp
  | cons b rest ih =>
    have hbyte := b.isLt
    rw [byteSum_cons, List.length_cons]
    omega

/-- The order of the bytes does not show in the checksum (40_checksum.md R51 item 4). -/
theorem csum16_eq_of_perm {bytes bytes' : List Byte} (hperm : bytes.Perm bytes') : csum16 bytes = csum16 bytes' := by
  have hsum : byteSum bytes = byteSum bytes' := (hperm.map BitVec.toNat).sum_eq
  apply BitVec.eq_of_toNat_eq
  rw [toNat_csum16, toNat_csum16, hsum]

/-- The checksum is the number that two bytes spell. -/
theorem csum16_eq_fromLe16_iff (bytes : List Byte) (c0 c1 : Byte) :
    csum16 bytes = fromLe16 c0 c1 ↔ byteSum bytes % 65536 = c0.toNat + 256 * c1.toNat := by
  rw [← BitVec.toNat_inj, toNat_csum16, toNat_fromLe16]

theorem validBit_eq_true_iff (calculated received : Half) : validBit calculated received = true ↔ calculated = received := by
  rw [validBit, beq_iff_eq]

theorem exec_validate_short {input : List Byte} (s : State) (hshort : input.length < 5) :
    exec (.validate input) s = .next { s with outputs := { status := some .ok, validOut := some false } } := by
  rw [exec, execValidate, validateReply, validateBuffer_short _ hshort, onPorts_deliver]

theorem exec_validate_append {front : List Byte} (c0 c1 : Byte) (s : State) (hlong : 3 ≤ front.length) :
    exec (.validate (front ++ [c0, c1])) s =
      .next { s with outputs := { status := some .ok, validOut := some (validBit (csum16 front) (fromLe16 c0 c1)) } } := by
  rw [exec, execValidate, validateReply, validateBuffer_append _ _ _ hlong, onPorts_deliver]

/-- VALIDATE of five bytes or more compares the checksum that the last two bytes show. -/
theorem exec_validate_shown {buffer : List Byte} (s : State) (hlong : 5 ≤ buffer.length) :
    exec (.validate buffer) s = .next { s with outputs :=
      { status := some .ok
        validOut := some (validBit (csum16 (buffer.take (buffer.length - 2))) (shownChecksum buffer)) } } := by
  obtain ⟨front, c0, c1, rfl, -⟩ := split_last_two (buffer.length - 2) buffer (by omega)
  have hfront : front.length + 2 = (front ++ [c0, c1]).length := by simp
  have htake : (front ++ [c0, c1]).take ((front ++ [c0, c1]).length - 2) = front := List.take_left' (by omega)
  rw [htake, shownChecksum_append, exec_validate_append c0 c1 s (by omega)]

end Sys2Proof.Machine
end

section
/-! The proofs of the obligations of 40_checksum.md R51 to R53. -/

namespace Sys2Proof.Proofs.Checksum
open Sys2Proof.Machine Sys2Proof.Claims

/-- Settles O20: each law is one of the byte sum, taken mod 65536; a sum of at most 257 bytes is below 65536. -/
theorem checksumLaws : Obligations.ChecksumLaws := by
  refine ⟨rfl, fun b => ?_, fun a b => ?_, fun a b => csum16_eq_of_perm, fun a b => ?_, fun a hsize => ?_⟩
  · have hbyte := b.isLt
    rw [toNat_csum16, byteSum_cons, byteSum_nil, Nat.mod_eq_of_lt (by omega), Nat.add_zero]
  · rw [csum16_append, BitVec.toNat_add]
  · simp
  · have hsum := byteSum_le a
    rw [toNat_csum16, Nat.mod_eq_of_lt (by omega)]

/-- Settles O21: the other bytes add the same to both sums, and two bytes differ by less than 65536. -/
theorem oneChangedByteChangesTheChecksum : Obligations.OneChangedByteChangesTheChecksum := by
  refine ⟨fun a b x y => ⟨?_, fun hne hsum => ?_⟩, fun bytes a k hinside hk hsum => ?_⟩
  · simp only [toNat_csum16, byteSum_append, byteSum_cons]
    omega
  · have hset : (a ++ x :: b).set a.length y = a ++ y :: b := by simp
    rw [← hset] at hsum
    have hsame := hset.symm.trans (set_eq_self_of_csum16_eq hsum)
    exact hne (List.cons.inj (List.append_cancel_left hsame)).1.symm
  · exact set_ne_self_of_ne_getD hinside (flipped_ne _ hk) (set_eq_self_of_csum16_eq hsum)

/-- Settles O22: the sum of equal bytes is a product. -/
theorem checksumDropsTheCarry : Obligations.ChecksumDropsTheCarry := by
  have hwrap : ∀ (n : Nat) (b : Byte), (csum16 (List.replicate n b)).toNat = n * b.toNat % 65536 := fun n b => by
    rw [toNat_csum16, byteSum_replicate]
  exact ⟨hwrap, BitVec.eq_of_toNat_eq (hwrap 65538 0xFF#8)⟩

/-- Settles O23: from five bytes on VALIDATE compares two 16-bit words, which are equal when their numbers are. -/
theorem validateComparesTheTrailingChecksum : Obligations.ValidateComparesTheTrailingChecksum := by
  refine ⟨fun input s => exec_validate_short s, fun front c0 c1 s hlong => ?_⟩
  have hbit : validBit (csum16 front) (fromLe16 c0 c1) = decide (byteSum front % 65536 = c0.toNat + 256 * c1.toNat) := by
    rw [Bool.eq_iff_iff, validBit_eq_true_iff, csum16_eq_fromLe16_iff, decide_eq_true_iff]
  rw [exec_validate_append c0 c1 s hlong, hbit]

/-- Settles O24: at the right size VALIDATE and DECODE compare the same two checksums. -/
theorem decodeIsSizeAndValidate : Obligations.DecodeIsSizeAndValidate := by
  intro buffer s t u hdecode hvalidate
  rw [← shownLength]
  have hvalid : 5 ≤ buffer.length →
      u.outputs.validOut = some (validBit (csum16 (buffer.take (buffer.length - 2))) (shownChecksum buffer)) := fun hlong => by
    rw [exec_validate_shown s hlong] at hvalidate
    cases hvalidate
    rfl
  rcases exec_decode_guards hdecode with ⟨hout, hsize⟩ | ⟨hout, hsize⟩ | ⟨hout, hsize, hchecksum⟩ | ⟨hout, hsize, hchecksum⟩
  · rw [hout]
    exact ⟨iff_of_false (by simp) (by omega), by omega, fun _ => .inl rfl⟩
  · rw [hout]
    exact ⟨iff_of_false (by simp) (by omega), by omega, fun _ => .inr rfl⟩
  · have hbit := Bool.eq_false_iff.mpr (mt (validBit_eq_true_iff _ _).mp hchecksum)
    rw [hout, hvalid (by omega), hbit]
    exact ⟨iff_of_false (by simp) (by simp), fun _ _ => iff_of_true rfl rfl, fun hother => absurd hsize hother⟩
  · rw [hout, hvalid (by omega), (validBit_eq_true_iff _ _).mpr hchecksum]
    exact ⟨iff_of_true rfl ⟨by omega, hsize, rfl⟩, fun _ _ => iff_of_false (by simp) (by simp), fun hother => absurd hsize hother⟩

end Sys2Proof.Proofs.Checksum
end

section
/-! SUPPORT. That a frame shows its fields and nothing else, and the frame of a Frame record (10_state.md R17, 41_framecodec.md R61, R67). -/

namespace Sys2Proof.Machine

/-- Two fields of a frame can be read off it: the command, and, the size being the payload's, the payload. -/
theorem command_payload_of_frameBytes_eq {command command' : Byte} {length length' : Half} {payload payload' : List Byte}
    {checksum checksum' : Half}
    (hsame : frameBytes command length payload checksum = frameBytes command' length' payload' checksum') :
    command = command' ∧ payload = payload' := by
  have hsize := congrArg List.length hsame
  rw [length_frameBytes, length_frameBytes] at hsize
  rw [frameBytes_eq, frameBytes_eq] at hsame
  simp only [List.cons.injEq] at hsame
  obtain ⟨hcommand, -, -, hrest⟩ := hsame
  exact ⟨hcommand, (List.append_inj hrest (by omega)).1⟩

/-- The wire frame of a valid Frame record's command and payload is the record's bytes. -/
theorem wireFrame_of_valid {f : Frame} (hvalid : Safety.FrameValid f) :
    wireFrame f.command f.payload = frameBytes f.command f.length f.payload f.checksum := by
  obtain ⟨hlength, hchecksum⟩ := hvalid
  have hfield : BitVec.ofNat 16 f.payload.length = f.length := by rw [← hlength, BitVec.ofNat_toNat, BitVec.setWidth_eq]
  rw [wireFrame, hfield, ← hchecksum]

/-- The header and the payload of a frame with the same bytes in another order outside the length field. -/
theorem perm_header_append {command command' : Byte} {payload payload' : List Byte} (length : Half)
    (hperm : (command :: payload).Perm (command' :: payload')) :
    (header command length ++ payload).Perm (header command' length ++ payload') :=
  List.perm_middle.symm.trans ((hperm.append_left (le16 length)).trans List.perm_middle)

theorem header_fromLe16 (command l0 l1 : Byte) : header command (fromLe16 l0 l1) = [command, l0, l1] := by
  rw [header, le16, lo8_fromLe16, hi8_fromLe16]

end Sys2Proof.Machine
end

section
/-! The proofs of the obligations of 41_framecodec.md and on what the checksum sees of a changed frame (40_checksum.md R56,
70_reset_and_hazards.md R124). -/

namespace Sys2Proof.Proofs.FrameCodec
open Sys2Proof.Machine Sys2Proof.Claims

/-- Settles O28: a frame shows its length and its checksum, and two equal frames have the same command and payload. -/
theorem encodedFramesAreValidAndDistinct : Obligations.EncodedFramesAreValidAndDistinct := by
  refine ⟨fun cmdIn input frame s t u hencode hout hvalidate => ?_,
    fun cmdIn cmdIn' input input' frame s s' t t' hencode hencode' hout hout' => ?_⟩
  · obtain ⟨length, hlength, rfl⟩ := exists_length_of_exec_encode hencode hout
    have hsize : (frameBytes cmdIn length input (csum16 (header cmdIn length ++ input))).length = 5 + length.toNat := by
      rw [length_frameBytes, hlength]
    rw [exec_validate_shown t (by omega), take_frameBytes, shownChecksum_frameBytes] at hvalidate
    cases hvalidate
    rw [← shownLength, shownLength_frameBytes]
    exact ⟨hsize, congrArg some ((validBit_eq_true_iff _ _).mpr rfl)⟩
  · obtain ⟨length, -, rfl⟩ := exists_length_of_exec_encode hencode hout
    obtain ⟨length', -, hframe⟩ := exists_length_of_exec_encode hencode' hout'
    exact command_payload_of_frameBytes_eq hframe

/-- Settles O29: the arms of DECODE's procedure, with the length and the checksum field as the numbers their bytes make. -/
theorem decodeTakesTheBufferApart : Obligations.DecodeTakesTheBufferApart := by
  refine ⟨fun buffer s hshort => exec_decode_of_raised s (decodeBuffer_short _ hshort),
    fun command l0 l1 rest s => ⟨fun hless => ?_, fun hmore => ?_⟩, fun command l0 l1 c0 c1 payload s hsize => ?_⟩
  · exact exec_decode_of_raised s (decodeBuffer_truncated command l0 l1 rest (by rw [toNat_fromLe16]; omega))
  · exact exec_decode_of_raised s (decodeBuffer_malformed command l0 l1 rest (by rw [toNat_fromLe16]; omega))
  · have hlength : payload.length = (fromLe16 l0 l1).toNat := by rw [hsize, toNat_fromLe16]
    have hchecksum := csum16_eq_fromLe16_iff (header command (fromLe16 l0 l1) ++ payload) c0 c1
    rw [header_fromLe16] at hchecksum
    rw [frameBytes_of_fields]
    refine ⟨fun hne => exec_decode_frameBytes_mismatch s hlength ?_,
      fun heq => exec_decode_frameBytes ⟨command, fromLe16 l0 l1, payload, fromLe16 c0 c1⟩ s ⟨hlength.symm, ?_⟩⟩
    · rw [header_fromLe16]
      exact fun hsame => hne (hchecksum.mp hsame)
    · rw [header_fromLe16]
      exact (hchecksum.mpr heq).symm

/-- Settles O33: three of DECODE's four ends are a condition alone, the fourth is `OK`. -/
theorem decodeConditionsDeliverNothing : Obligations.DecodeConditionsDeliverNothing := by
  intro buffer s t hexec hstatus
  rcases exec_decode_guards hexec with ⟨hout, -⟩ | ⟨hout, -⟩ | ⟨hout, -⟩ | ⟨hok, -⟩
  · exact ⟨_, by simp, hout⟩
  · exact ⟨_, by simp, hout⟩
  · exact ⟨_, by simp, hout⟩
  · exact absurd hok hstatus

/-- Settles O35: DECODE accepts the bytes of a valid Frame record, and these are the wire frame of its command and payload. -/
theorem encodeUndoesDecode : Obligations.EncodeUndoesDecode := by
  intro buffer payload cmd s t u hexec hok hcmd hout
  rcases exec_decode_cases buffer s with ⟨st, hst, hnext⟩ | ⟨f, hvalid, rfl, hnext⟩ <;> cases hnext.symm.trans hexec
  · exact absurd (Option.some.inj hok) hst
  · cases hcmd
    cases hout
    have hfits : f.payload.length ≤ 65535 := by
      have hlength := hvalid.1
      have hfield := f.length.isLt
      omega
    rw [exec_encode_fits _ _ _ hfits, wireFrame_of_valid hvalid]

/-- Settles O38: behind the header of the frame there are more bytes than its length field asks for. -/
theorem framesWithExcessAreMalformed : Obligations.FramesWithExcessAreMalformed := by
  intro cmd payload frame excess s t u hencode hout hexcess hdecode
  obtain ⟨length, hlength, rfl⟩ := exists_length_of_exec_encode hencode hout
  have hmore := List.length_pos_iff.mpr hexcess
  rw [frameBytes_eq, List.cons_append, List.cons_append, List.cons_append,
    exec_decode_of_raised t (decodeBuffer_malformed _ _ _ _ (by simp [hlength]; omega))] at hdecode
  cases hdecode
  rfl

/-- Settles O39: a frame whose payload is shorter or longer than its length field says. -/
theorem wrongLengthIsNeverAccepted : Obligations.WrongLengthIsNeverAccepted := by
  intro command l0 l1 c0 c1 payload s t hlength hexec
  rw [frameBytes_of_fields] at hexec
  rcases Nat.lt_or_gt_of_ne hlength with hshort | hlong
  · rw [exec_decode_frameBytes_truncated _ _ _ hshort] at hexec
    cases hexec
    simp
  · rw [exec_decode_frameBytes_malformed _ _ _ hlong] at hexec
    cases hexec
    simp

/-- Settles O40: another byte outside the length field changes the sum or the received checksum, not both. -/
theorem oneChangedByteIsDetected : Obligations.OneChangedByteIsDetected := by
  intro cmd b payload frame a s t u hencode hout hinside hone htwo hne hdecode
  obtain ⟨length, hlength, rfl⟩ := exists_length_of_exec_encode hencode hout
  have hchanged := set_ne_self_of_ne_getD hinside hne
  rw [length_frameBytes] at hinside
  rw [exec_decode_set_outsideLength t hlength.symm (by omega) hinside hchanged] at hdecode
  cases hdecode
  rfl

/-- Settles O41: the reordered frame has the size and the checksum of the first one, so it is valid. -/
theorem reorderedFramesAreAccepted : Obligations.ReorderedFramesAreAccepted := by
  intro cmd cmd' payload payload' length checksum s hperm hlength hchecksum
  have hsize : payload.length = payload'.length := Nat.succ.inj hperm.length_eq
  exact exec_decode_frameBytes ⟨cmd', length, payload', checksum⟩ s
    ⟨hlength.symm.trans hsize, hchecksum.trans (csum16_eq_of_perm (perm_header_append length hperm))⟩

end Sys2Proof.Proofs.FrameCodec
end

section
/-! SUPPORT. What a command row does: the receipt of its frame, carried and named, or reported (42_commands.md R76 to R88). -/

namespace Sys2Proof.Machine
open Sys2Proof.Claims

/-- The receipt of the bytes of a valid Frame record delivers the record and names its command (log entry 2). -/
theorem receiveReply_frameBytes (table : CommandTable) {f : Frame} (hvalid : Safety.FrameValid f) :
    receiveReply table (frameBytes f.command f.length f.payload f.checksum) =
      deliver { frameOutputs f with kind := some (classifyBy table f.command) } := by
  obtain ⟨hlength, hchecksum⟩ := hvalid
  rw [receiveReply, decodeBuffer_frameBytes _ _ _ _ hlength.symm, if_pos hchecksum.symm]

/-- The receipt of bytes from which DECODE delivers nothing reports DECODE's condition. -/
theorem receive_of_exec_decode {bytes : List Byte} {st : Status} {s : State}
    (hexec : exec (.decode bytes) s = .next { s with outputs := { status := some st } }) :
    receive bytes s = .next { s with outputs := { status := some st } } := by
  obtain ⟨o, hreply, hout⟩ := onPorts_eq_next.mp hexec
  cases hout
  exact onPorts_eq_next.mpr ⟨_, receiveReply_of_decodeReply commandTable hreply, rfl⟩

section
variable {row : Half → List Byte → Half → Instr} {value : Byte}
variable (hrow : ∀ length payload checksum s, exec (row length payload checksum) s = receive (frameBytes value length payload checksum) s)
include hrow

/-- A row that receives the frame of its value carries it and names its command (42_commands.md R76 to R88). -/
theorem carriedAs_of_receive {kind : Command} (hkind : classifyByte value = kind) : CarriedAs row value kind := by
  intro payload length checksum s hlength hchecksum
  rw [hrow, receive, receiveReply_frameBytes commandTable (f := ⟨value, length, payload, checksum⟩) ⟨hlength.symm, hchecksum⟩,
    ← hkind]
  rfl

/-- A row that receives the frame of its value reports what DECODE reports of a damaged one. -/
theorem damageReported_of_receive : DamageReported row value := by
  intro payload length checksum s
  simp only [hrow]
  refine ⟨fun hlength hchecksum => ?_, fun hshort => ?_, fun hlong => ?_⟩ <;> apply receive_of_exec_decode
  · exact exec_decode_frameBytes_mismatch s hlength hchecksum.symm
  · exact exec_decode_frameBytes_truncated value checksum s hshort
  · exact exec_decode_frameBytes_malformed value checksum s hlong

end

/-- CLASSIFY names the command byte by the default table and leaves the request standing (42_commands.md R75). -/
theorem exec_classify (cmdIn : Byte) (s : State) :
    exec (.classify cmdIn) s = .next { s with outputs := { status := some .ok, kind := some (classifyByte cmdIn) } } := rfl

/-- The known command bytes, as numbers, are the values of the default table's rows (30_encoding.md R41). -/
theorem filter_known_perm : ((List.range 256).filter fun n => classifyByte (BitVec.ofNat 8 n) ≠ .unknownCommand).Perm
    ((commandTable.map Prod.fst).map BitVec.toNat) := by
  refine (List.perm_ext_iff_of_nodup (List.nodup_range.filter _) (by decide)).mpr fun n => ?_
  rw [List.mem_filter, List.mem_range, decide_eq_true_iff, ne_eq, classifyByte_eq_unknown_iff, not_not, List.mem_map (f := BitVec.toNat)]
  constructor
  · rintro ⟨hbyte, hrow⟩
    exact ⟨_, hrow, by rw [BitVec.toNat_ofNat, Nat.mod_eq_of_lt hbyte]⟩
  · rintro ⟨value, hrow, rfl⟩
    exact ⟨value.isLt, by rwa [BitVec.ofNat_toNat, BitVec.setWidth_eq]⟩

/-- A known command is `known_out = 1` (30_encoding.md R46). -/
theorem knownBit_of_ne {command : Command} (hknown : command ≠ .unknownCommand) : knownBit command = 1#1 := by
  cases command with
  | unknownCommand => exact absurd rfl hknown
  | _ => rfl

/-- The two ports that show a command named, `known_out` and `kind_out` (30_encoding.md R46). -/
def commandPorts (command : Command) : Option (BitVec 1) × Option (BitVec 4) := (some (knownBit command), some (kindCode command))

theorem knownOut_kindOut_of_kind {o : Outputs} {command : Command} (hkind : o.kind = some command) :
    (knownOut o, kindOut o) = commandPorts command := by
  rw [knownOut, kindOut, hkind]
  rfl

end Sys2Proof.Machine
end

section
/-! The proofs of the obligations of 42_commands.md: CLASSIFY, and the thirteen command rows. -/

namespace Sys2Proof.Proofs.Commands
open Sys2Proof.Machine Sys2Proof.Claims

/-- Settles O42: CLASSIFY walks the default table in its order. -/
theorem classifyNamesTheCommandByte : Obligations.ClassifyNamesTheCommandByte := by
  intro cmdIn s
  refine ⟨_, exec_classify cmdIn s, rfl, rfl, ?_⟩
  rw [knownOut_kindOut_of_kind rfl]
  simp only [classifyByte, commandTable, classifyBy, apply_ite commandPorts]
  rfl

/-- Settles O43: without repeats the first row of a value is its only one. -/
theorem classificationByAnyTable : Obligations.ClassificationByAnyTable := by
  intro table hnodup
  refine ⟨fun value command => classifyBy_of_mem hnodup, fun value => classifyBy_of_notMem,
    fun value input s => ⟨_, rfl, rfl, rfl, fun command hmem hknown => ?_, fun hunknown => ?_⟩⟩
  · simp [knownOut, kindOut, classifyBy_of_mem hnodup hmem, knownBit_of_ne hknown]
  · simp [knownOut, kindOut, classifyBy_of_notMem hunknown, knownBit, kindCode]

/-- Settles O44: the known bytes are the 13 values of the table, and the others are those of the 256 that are left. -/
theorem thirteenCommandsAreKnown : Obligations.ThirteenCommandsAreKnown := by
  have hknown : ((List.range 256).countP fun n => classifyByte (BitVec.ofNat 8 n) ≠ .unknownCommand) = 13 := by
    rw [List.countP_eq_length_filter, filter_known_perm.length_eq]
    rfl
  refine ⟨hknown, ?_⟩
  have hall := List.length_eq_countP_add_countP (fun n => decide (classifyByte (BitVec.ofNat 8 n) ≠ .unknownCommand))
    (l := List.range 256)
  rw [hknown, List.length_range] at hall
  simp only [decide_not, Bool.not_eq_true', decide_eq_false_iff_not, not_not] at hall
  omega

/-- Settles O45: both rows receive the frame of their value. -/
theorem fileNameFramesAreCarried : Obligations.FileNameFramesAreCarried :=
  ⟨carriedAs_of_receive (fun _ _ _ _ => rfl) rfl, carriedAs_of_receive (fun _ _ _ _ => rfl) rfl⟩

/-- Settles O46: the seven rows receive the frame of their value. -/
theorem negotiationFramesAreCarried : Obligations.NegotiationFramesAreCarried := by
  refine ⟨?_, ?_, ?_, ?_, ?_, ?_, ?_⟩ <;> exact carriedAs_of_receive (fun _ _ _ _ => rfl) rfl

/-- Settles O47: the four rows receive the frame of their value. -/
theorem transferFramesAreCarried : Obligations.TransferFramesAreCarried := by
  refine ⟨?_, ?_, ?_, ?_⟩ <;> exact carriedAs_of_receive (fun _ _ _ _ => rfl) rfl

/-- Settles O48: the thirteen rows receive the frame of their value. -/
theorem damagedCommandFramesAreReported : Obligations.DamagedCommandFramesAreReported := by
  refine ⟨?_, ?_, ?_, ?_, ?_, ?_, ?_, ?_, ?_, ?_, ?_, ?_, ?_⟩ <;> exact damageReported_of_receive fun _ _ _ _ => rfl

end Sys2Proof.Proofs.Commands
end

section
/-! SUPPORT. The bytes of a payload field: how many, and as numbers (30_encoding.md R43). -/

namespace Sys2Proof.Machine

@[simp] theorem length_bytesLe (k v : Nat) : (bytesLe k v).length = k := by
  induction k generalizing v with
  | zero => rfl
  | succ k ih => rw [bytesLe, List.length_cons, ih]

@[simp] theorem length_inOrder (order : ByteOrder) (bytes : List Byte) : (inOrder order bytes).length = bytes.length := by
  cases order with
  | little => rfl
  | big => exact List.length_reverse

@[simp] theorem length_openField (k v : Nat) : (openField k v).length = k := by
  rw [openField, length_inOrder, length_bytesLe]

/-- A list of 32-bit fields has four bytes for each (42_commands.md R79). -/
theorem length_flatMap_openField (words : List (BitVec 32)) :
    (words.flatMap fun word => openField 4 word.toNat).length = 4 * words.length := by
  simp [List.length_flatMap, Nat.mul_comm]

/-- A 16-bit field, least significant byte first. -/
theorem map_toNat_bytesLe_two {v : Nat} (hv : v < 65536) : (bytesLe 2 v).map BitVec.toNat = [v % 256, v / 256] := by
  have hhigh : v / 256 % 256 = v / 256 := by omega
  simp [hhigh, bytesLe]

/-- A 32-bit field, least significant byte first. -/
theorem map_toNat_bytesLe_four {v : Nat} (hv : v < 4294967296) :
    (bytesLe 4 v).map BitVec.toNat = [v % 256, v / 256 % 256, v / 65536 % 256, v / 16777216] := by
  have hthird : v / 256 / 256 = v / 65536 := by omega
  have hhigh : v / 65536 / 256 % 256 = v / 16777216 := by omega
  simp [hthird, hhigh, bytesLe]

end Sys2Proof.Machine
end

section
/-! SUPPORT. That the result codes can be read back (30_encoding.md R45, R46). -/

namespace Sys2Proof.Machine

/-- The statuses in the order of their codes (30_encoding.md R45). -/
def statuses : List Status := [.ok, .truncated, .checksumMismatch, .malformed, .payloadTooLarge, .illegalOp]

theorem statuses_getElem?_code (st : Status) : statuses[st.code.toNat]? = some st := by
  cases st <;> rfl

/-- The commands of the default table's rows stand at their kinds, and no row at that of `UnknownCommand` (30_encoding.md R46). -/
theorem commandTable_getD_kindCode (command : Command) :
    (commandTable.map Prod.snd).getD (kindCode command).toNat .unknownCommand = command := by
  cases command <;> rfl

theorem code_injective {st st' : Status} (hcode : st.code = st'.code) : st = st' := by
  have hread := statuses_getElem?_code st
  rw [hcode, statuses_getElem?_code] at hread
  exact (Option.some.inj hread).symm

theorem kindCode_injective {command command' : Command} (hkind : kindCode command = kindCode command') : command = command' := by
  rw [← commandTable_getD_kindCode command, hkind, commandTable_getD_kindCode]

/-- 13 and 14 are no kind (30_encoding.md R46). -/
theorem kindCode_ne_thirteen_fourteen (command : Command) : kindCode command ≠ 13#4 ∧ kindCode command ≠ 14#4 := by
  cases command <;> decide

theorem knownBit_eq_zero_iff (command : Command) : knownBit command = 0#1 ↔ command = .unknownCommand := by
  refine ⟨fun hbit => ?_, fun hunknown => by rw [hunknown, knownBit]⟩
  by_contra hknown
  rw [knownBit_of_ne hknown] at hbit
  exact absurd hbit (by decide)

end Sys2Proof.Machine
end

section
/-! The proofs of the obligations on result codes, reads and payloads (30_encoding.md R45, R46, 20_memory.md R21, 42_commands.md R85 to
R89). -/

namespace Sys2Proof.Proofs.CodesAndPayloads
open Sys2Proof.Machine

/-- Settles O49: a status and a command can be read back from their codes. -/
theorem resultCodesAreDistinct : Obligations.ResultCodesAreDistinct :=
  ⟨fun _ => ⟨rfl, rfl, rfl, rfl, rfl, rfl⟩, fun _ _ => code_injective, code_ne_six_seven, fun _ _ => kindCode_injective,
    kindCode_ne_thirteen_fourteen, knownBit_eq_zero_iff⟩

/-- Settles O50: a read cuts its bytes out of the buffer, if they are all there. -/
theorem readsAreDefinedInsideTheBuffer : Obligations.ReadsAreDefinedInsideTheBuffer := by
  intro buffer a n
  rcases Nat.lt_or_ge buffer.length (a + n) with houtside | hinside
  · rw [memRead_of_lt _ _ _ houtside]
    exact ⟨iff_of_false (by simp) (by omega), fun bytes hread => by cases hread⟩
  · rw [memRead_of_le _ _ _ hinside]
    refine ⟨iff_of_true rfl hinside, fun bytes hread => ?_⟩
    cases hread
    refine ⟨?_, fun i hi => ?_⟩
    · rw [List.length_take, List.length_drop]
      omega
    · rw [List.getElem?_take_of_lt hi, List.getElem?_drop]

/-- Settles O51: a field has its width in either byte order, and a payload is its fields one after the other. -/
theorem payloadsHaveTheirTableSizes : Obligations.PayloadsHaveTheirTableSizes := by
  have hprobe : ∀ (d r : BitVec 32) (v : Byte), (probeRequestPayload d v r).length = 9 := fun d r v => by
    simp [probeRequestPayload]
  refine ⟨rfl, hprobe, fun d r v bs => ?_, fun s f b m z c path => ?_, fun s st => ?_, fun s b d => ?_, fun s => ⟨?_, ?_⟩,
    fun o => ?_, fun z => ?_, fun o l => ?_⟩
  · rw [probeResponsePayload, List.length_append, hprobe, length_flatMap_openField]
  · simp only [capabilityNegoPayload, List.length_append, length_openField, List.length_singleton]
  · simp only [capabilityAckPayload, List.length_append, length_openField, List.length_singleton]
  · simp only [switchBaudratePayload, List.length_append, length_openField]
  · exact length_openField ..
  · exact length_openField ..
  · rw [requestFileSizePayload, length_inOrder, length_bytesLe]
  · exact length_bytesLe ..
  · rw [requestDataPayload, List.length_append, length_bytesLe, length_bytesLe]

/-- Settles O52: the fields are little-endian, and their values fit their widths. -/
theorem sizesAndOffsetsAreLittleEndian : Obligations.SizesAndOffsetsAreLittleEndian := by
  refine ⟨fun z => map_toNat_bytesLe_four z.isLt, fun o l => ?_⟩
  rw [requestDataPayload, List.map_append, map_toNat_bytesLe_four o.isLt, map_toNat_bytesLe_two l.isLt]
  rfl

/-- Settles O53: the two orders hold the same bytes, whose order the checksum does not see. -/
theorem markerOrderDoesNotShowInTheChecksum : Obligations.MarkerOrderDoesNotShowInTheChecksum := by
  refine ⟨rfl, rfl, fun o => ?_⟩
  cases o with
  | little => rfl
  | big =>
    have hperm : (requestFileSizePayload .big).Perm (requestFileSizePayload .little) := List.reverse_perm _
    rw [csum16_eq_of_perm (hperm.append_left _)]
    rfl

end Sys2Proof.Proofs.CodesAndPayloads
end
